-- ==== Sys2Proof/Word.lean ====
section
/-! DEFINITION. The word and byte types of the hardware (spec/00_scope.md rules R6, R9, R10). -/

namespace Sys2Proof

/-- A 32-bit word: the width of a general register, of HI, of LO, of a coprocessor 0 register, of an
address and of an instruction (R6, decision D1; R80). `BitVec.toNat` is the spec's `unsigned(.)` and
`BitVec.toInt` its `signed(.)` (R10). -/
abbrev Word := BitVec 32

/-- One byte of memory: an address counts bytes (R51). -/
abbrev Byte := BitVec 8

/-- A file of 32 word registers: the general registers (R20) and the coprocessor 0 registers (R26). -/
abbrev RegFile := Vector Word 32

/-- A 5-bit register number, of a general register (`rs`, `rt`, `rd`, `base`) or of a coprocessor 0
register (`cs`): R20, R26, R82, R270. -/
abbrev RegNum := BitVec 5

end Sys2Proof
end

