-- ==== Sys2Proof/Config.lean ====
section
/-! DEFINITION. The open parameters of spec/00_scope.md rule R7: values the source does not give. Those that
are plain data are fields of `Config`, which the machine's state carries unchanged, so that a statement about
every state is a statement about every value of the parameters; those that are functions are opaque constants,
about which nothing can be proved. `Config.default` holds the defaults of rule R7. -/

namespace Sys2Proof

/-- `ENDIAN` (R55, D6): where the bytes of a word stand in memory. No program can observe it (R54). -/
inductive Endian where
  | big     -- the byte at the lowest address is bits 31..24
  | little  -- the byte at the lowest address is bits 7..0
deriving DecidableEq, Repr

/-- The two values of `MISALIGNED_DATA` (R56, D7) and of `MISALIGNED_FETCH` (R57, D8). -/
inductive AlignPolicy where
  | refuse
  | forceAlign
deriving DecidableEq, Repr

/-- `RESERVED_POLICY` (R99, D9): what a word that matches no row of the opcode table does. -/
inductive ReservedPolicy where
  | refuse
  | trap
deriving DecidableEq, Repr

/-- `SMC_POLICY` (R70, D21): what a fetch of a word the program has stored does. -/
inductive SmcPolicy where
  | refuse
  | coherent
deriving DecidableEq, Repr

/-- `TrapEntry` (R320, D13): `terminal`, the trap ends the run with its record; `handler a`, control goes to the
exception handler at the address `a`; or `custom`, it goes to the address `Config.trapEntryPc` computes from the
state and the record. What the last two do to the coprocessor 0 registers is `Config.trapEntryC0`; both functions
stand in Machine/State.lean. -/
inductive TrapEntry where
  | terminal
  | handler (addr : Word)
  | custom
deriving DecidableEq, Repr

/-- `C0Read`, `C0Write` (R27, D18): plain storage, or the two functions `Config.c0Read`, `Config.c0Write`. -/
inductive C0Access where
  | plain
  | custom
deriving DecidableEq, Repr

/-- `Cop0Op` (R273, D19): `refuse`, every `cop_fun` refused; `perform`, every operation completes and the next
instruction follows, its results being the registers `Config.cop0Gprs` and `Config.cop0File`; or `custom`, the
outcome is the function `Config.cop0Outcome` of `cop_fun` and the state. The functions stand in
Machine/State.lean. -/
inductive Cop0Policy where
  | refuse
  | perform
  | custom
deriving DecidableEq, Repr

/-- The exceptions (R310): the three the source names; the one that exists only under `RESERVED_POLICY = trap`
(R99); and the one an `InterruptSource` delivers (R330). -/
inductive ExcKind where
  | integerOverflow
  | breakpoint
  | systemCall
  | reservedInstruction
  | interrupt (n : Nat)
deriving DecidableEq, Repr

/-- Where control goes after an operation of the coprocessor system that completes (R273: what one does is open,
a return from an exception included, R325). -/
inductive Cop0Control where
  /-- On to the next instruction (R35). -/
  | goOn
  /-- To the instruction at `pc`, in no delay slot. -/
  | goTo (pc : Word)
  /-- To the instruction at `pc` as the delay slot of a branch to `target`. -/
  | goToSlot (pc target : Word)
deriving DecidableEq, Repr

/-- What an operation of the coprocessor system that completes leaves: every register, the words of memory it
writes, in order, and where control goes. -/
structure Cop0Effect where
  gpr : RegFile
  hi : Word
  lo : Word
  c0 : RegFile
  /-- Pairs of an address and the word written there. -/
  writes : List (Word × Word)
  control : Cop0Control
deriving DecidableEq, Repr

/-- An outcome of an operation of the coprocessor system: one of the three outcomes of a step (R15). -/
inductive Cop0Outcome where
  | refused
  | raises (kind : ExcKind)
  | completes (effect : Cop0Effect)
deriving DecidableEq, Repr, Inhabited

/-- One range of addresses backed by memory: `size` bytes from `base` up. -/
structure Region where
  base : Nat
  size : Nat
deriving DecidableEq, Repr

/-- The open parameters of R7 that are plain data. `HALT` is an argument of the run (Safety.lean), the
arrivals of `InterruptSource` are a field of the state, and `EXC_CODE` is `Config.excCode`. -/
structure Config where
  /-- `RESET_PC` (R40, R361, D22). -/
  resetPc : Word
  /-- `MemMap` (R53, D5): the ranges backed by memory. -/
  memMap : List Region
  /-- `ENDIAN` (R55, D6). -/
  endian : Endian
  /-- `MISALIGNED_DATA` (R56, D7). -/
  misalignedData : AlignPolicy
  /-- `MISALIGNED_FETCH` (R57, D8). -/
  misalignedFetch : AlignPolicy
  /-- `RESERVED_POLICY` (R99, D9). -/
  reservedPolicy : ReservedPolicy
  /-- `TrapEntry` (R320, D13). -/
  trapEntry : TrapEntry
  /-- `C0Read` and `C0Write` (R27, D18). -/
  c0Access : C0Access
  /-- `Cop0Op` (R273, D19). -/
  cop0Op : Cop0Policy
  /-- `SMC_POLICY` (R70, D21). -/
  smcPolicy : SmcPolicy
  /-- `LINK_ON_NOT_TAKEN` (R202, D30). -/
  linkOnNotTaken : Bool
deriving DecidableEq, Repr

/-- The whole 32-bit address space as one range. -/
def Region.wholeSpace : Region := { base := 0, size := 2 ^ 32 }

/-- Rule R7's defaults. R7 gives no default for `RESET_PC`, `MemMap` and `ENDIAN`; the three values here are
the model's own. DESIGN CHOICE (notes/assumptions/3, 4, 5): unsafe for a claim that uses one of them. -/
def Config.default : Config where
  resetPc := 0
  memMap := [Region.wholeSpace]
  endian := .big
  misalignedData := .refuse
  misalignedFetch := .refuse
  reservedPolicy := .refuse
  trapEntry := .terminal
  c0Access := .plain
  cop0Op := .refuse
  smcPolicy := .refuse
  linkOnNotTaken := true

/-- FREE VALUE: `C0Read(c0, i)` where the parameter is not plain storage (R27, D18). notes/assumptions/16. -/
opaque Config.c0Read : RegFile → RegNum → Word

/-- FREE VALUE: `C0Write(c0, i, v)` where the parameter is not plain storage (R27, D18). notes/assumptions/16. -/
opaque Config.c0Write : RegFile → RegNum → Word → RegFile

/-- FREE VALUE: `EXC_CODE` (R315, D12), the numbers of the exceptions; no rule of the core reads it.
notes/assumptions/14. -/
opaque Config.excCode : ExcKind → Nat

/-- The configuration the machine has after reset: rule R7's defaults, but for `TrapEntry`, which takes the
exception at a free address where the default would end the run. DESIGN CHOICE (notes/assumptions/11): safe,
since nothing is known of the address or of the coprocessor 0 registers after entry. -/
def Config.atReset : Config := { Config.default with trapEntry := .custom }

/-- What the spec asks of a choice of the parameters: `RESET_PC` is a multiple of 4 and in `MemMap` (R361),
and a handler address that is plain data is a multiple of 4, as every `pc` with a meaning is (R32). -/
def Config.sound (c : Config) : Bool :=
  c.resetPc.toNat % 4 == 0 &&
  c.memMap.any (fun r => r.base ≤ c.resetPc.toNat && c.resetPc.toNat + 4 ≤ r.base + r.size) &&
  (match c.trapEntry with
   | .terminal | .custom => true
   | .handler a => a.toNat % 4 == 0)

end Sys2Proof
end

