-- ==== Sys2Proof/Syntax.lean ====
section
/-! DEFINITION. The instructions: one constructor for each of the 51 rows of spec/opcode_table.json
(spec/00_scope.md rule R2), in the table's order. The operands stand in the order of the assembler forms of
spec/30_encoding.md rule R104; each has the width of its field in the table. -/

namespace Sys2Proof

/-- A decoded instruction. -/
inductive Instr where
  | add (rd rs rt : RegNum)
  | addi (rt rs : RegNum) (immediate : BitVec 16)
  | addiu (rt rs : RegNum) (immediate : BitVec 16)
  | addu (rd rs rt : RegNum)
  | and (rd rs rt : RegNum)
  | andi (rt rs : RegNum) (immediate : BitVec 16)
  | beq (rs rt : RegNum) (offset : BitVec 16)
  | bgez (rs : RegNum) (offset : BitVec 16)
  | bgezal (rs : RegNum) (offset : BitVec 16)
  | bgtz (rs : RegNum) (offset : BitVec 16)
  | blez (rs : RegNum) (offset : BitVec 16)
  | bltz (rs : RegNum) (offset : BitVec 16)
  | bltzal (rs : RegNum) (offset : BitVec 16)
  | bne (rs rt : RegNum) (offset : BitVec 16)
  | brk (code : BitVec 20)
  | cop0 (copFun : BitVec 21)
  | j (instrIndex : BitVec 26)
  | jal (instrIndex : BitVec 26)
  | jr (rs : RegNum)
  | jalr (rd rs : RegNum)
  | lui (rt : RegNum) (immediate : BitVec 16)
  | lw (rt : RegNum) (offset : BitVec 16) (base : RegNum)
  | lwc0 (cs : RegNum) (offset : BitVec 16) (base : RegNum)
  | mfc0 (rt cs : RegNum)
  | mfhi (rd : RegNum)
  | mflo (rd : RegNum)
  | mtc0 (rt cs : RegNum)
  | mthi (rs : RegNum)
  | mtlo (rs : RegNum)
  | mult (rs rt : RegNum)
  | multu (rs rt : RegNum)
  | nor (rd rs rt : RegNum)
  | or (rd rs rt : RegNum)
  | ori (rt rs : RegNum) (immediate : BitVec 16)
  | sll (rd rt : RegNum) (sa : BitVec 5)
  | sllv (rd rt rs : RegNum)
  | slt (rd rs rt : RegNum)
  | slti (rt rs : RegNum) (immediate : BitVec 16)
  | sltiu (rt rs : RegNum) (immediate : BitVec 16)
  | sltu (rd rs rt : RegNum)
  | sra (rd rt : RegNum) (sa : BitVec 5)
  | srav (rd rt rs : RegNum)
  | srl (rd rt : RegNum) (sa : BitVec 5)
  | srlv (rd rt rs : RegNum)
  | sub (rd rs rt : RegNum)
  | subu (rd rs rt : RegNum)
  | sw (rt : RegNum) (offset : BitVec 16) (base : RegNum)
  | swc0 (cs : RegNum) (offset : BitVec 16) (base : RegNum)
  | syscall (code : BitVec 20)
  | xor (rd rs rt : RegNum)
  | xori (rt rs : RegNum) (immediate : BitVec 16)
deriving DecidableEq, Repr

end Sys2Proof
end

