-- ==== Sys2Proof/WellFormed.lean ====
section
/-! DEFINITION. Which instructions software may use. The widths of the operands are in the types of `Instr`;
what is left to check are the three operand combinations the source forbids (spec/70_reset_and_hazards.md rule
R372): such a word still decodes, and executing it is refused (spec/44_branch.md R211, spec/45_jump.md R236). -/

namespace Sys2Proof

/-- The instruction is not one of the three UNPREDICTABLE forms: BGEZAL and BLTZAL with `rs = 31` (R211),
JALR with `rs = rd` (R236). -/
def Instr.wellFormed : Instr → Bool
  | .bgezal rs _ => rs != 31
  | .bltzal rs _ => rs != 31
  | .jalr rd rs => rs != rd
  | .add _ _ _ | .addi _ _ _ | .addiu _ _ _ | .addu _ _ _ | .and _ _ _ | .andi _ _ _ | .beq _ _ _ | .bgez _ _
  | .bgtz _ _ | .blez _ _ | .bltz _ _ | .bne _ _ _ | .brk _ | .cop0 _ | .j _ | .jal _ | .jr _ | .lui _ _
  | .lw _ _ _ | .lwc0 _ _ _ | .mfc0 _ _ | .mfhi _ | .mflo _ | .mtc0 _ _ | .mthi _ | .mtlo _ | .mult _ _
  | .multu _ _ | .nor _ _ _ | .or _ _ _ | .ori _ _ _ | .sll _ _ _ | .sllv _ _ _ | .slt _ _ _ | .slti _ _ _
  | .sltiu _ _ _ | .sltu _ _ _ | .sra _ _ _ | .srav _ _ _ | .srl _ _ _ | .srlv _ _ _ | .sub _ _ _
  | .subu _ _ _ | .sw _ _ _ | .swc0 _ _ _ | .syscall _ | .xor _ _ _ | .xori _ _ _ => true

end Sys2Proof
end

