-- ==== Sys2Proof/Decode.lean ====
section
/-! DEFINITION. The order of bytes in a word (spec/20_memory.md rule R55), the decoder, by mask and match as
spec/30_encoding.md rule R97 describes it, and the encoder, from the layouts of rule R81. -/

namespace Sys2Proof

/-! ## Bit fields and byte order -/

/-- `w[lo+n-1 : lo]`, the field of `n` bits whose lowest is bit `lo` (R9). -/
def field (w : Word) (lo n : Nat) : BitVec n := w.extractLsb' lo n

/-- The byte of the word `w` that stands `k` addresses above the word's own address (R55). -/
def byteAt (e : Endian) (w : Word) (k : Nat) : Byte :=
  match e with
  | .big => field w (24 - 8 * k) 8
  | .little => field w (8 * k) 8

/-- The word whose bytes, from the lowest address up, are `b0`, `b1`, `b2`, `b3` (R55). -/
def joinBytes (e : Endian) (b0 b1 b2 b3 : Byte) : Word :=
  match e with
  | .big => b0 ++ b1 ++ b2 ++ b3
  | .little => b3 ++ b2 ++ b1 ++ b0

/-! ## The decoder -/

/-- `rs` or `base`, bits 25..21 (R82, R84). -/
def rsField (w : Word) : RegNum := field w 21 5

/-- `rt`, bits 20..16 (R82); the `cs` of LWC0 and SWC0 (R84). -/
def rtField (w : Word) : RegNum := field w 16 5

/-- `rd`, bits 15..11 (R82); the `cs` of MFC0 and MTC0 (R84). -/
def rdField (w : Word) : RegNum := field w 11 5

/-- `sa`, bits 10..6 (R82). -/
def saField (w : Word) : BitVec 5 := field w 6 5

/-- `immediate` or `offset`, bits 15..0 (R82). -/
def immField (w : Word) : BitVec 16 := field w 0 16

/-- `code`, bits 25..6 (R82, D26). -/
def codeField (w : Word) : BitVec 20 := field w 6 20

/-- `instr_index`, bits 25..0 (R83). -/
def indexField (w : Word) : BitVec 26 := field w 0 26

/-- `cop_fun`, bits 20..0 (R83, D31). -/
def copFunField (w : Word) : BitVec 21 := field w 0 21

/-- One row of spec/opcode_table.json (R98): `mask` has a 1 at every fixed bit, the must-be-zero fields of
R100 among them, and `value` (the table's `match`) the bits that stand there. -/
structure OpRow where
  mnemonic : String
  mask : Word
  value : Word
  build : Word → Instr

/-- The rows of spec/40_arithmetic.md. -/
def arithRows : List OpRow :=
  [ { mnemonic := "ADD", mask := 0xFC0007FF, value := 0x00000020, build := fun w => .add (rdField w) (rsField w) (rtField w) },
    { mnemonic := "ADDI", mask := 0xFC000000, value := 0x20000000, build := fun w => .addi (rtField w) (rsField w) (immField w) },
    { mnemonic := "ADDIU", mask := 0xFC000000, value := 0x24000000, build := fun w => .addiu (rtField w) (rsField w) (immField w) },
    { mnemonic := "ADDU", mask := 0xFC0007FF, value := 0x00000021, build := fun w => .addu (rdField w) (rsField w) (rtField w) },
    { mnemonic := "SUB", mask := 0xFC0007FF, value := 0x00000022, build := fun w => .sub (rdField w) (rsField w) (rtField w) },
    { mnemonic := "SUBU", mask := 0xFC0007FF, value := 0x00000023, build := fun w => .subu (rdField w) (rsField w) (rtField w) },
    { mnemonic := "SLT", mask := 0xFC0007FF, value := 0x0000002A, build := fun w => .slt (rdField w) (rsField w) (rtField w) },
    { mnemonic := "SLTI", mask := 0xFC000000, value := 0x28000000, build := fun w => .slti (rtField w) (rsField w) (immField w) },
    { mnemonic := "SLTIU", mask := 0xFC000000, value := 0x2C000000, build := fun w => .sltiu (rtField w) (rsField w) (immField w) },
    { mnemonic := "SLTU", mask := 0xFC0007FF, value := 0x0000002B, build := fun w => .sltu (rdField w) (rsField w) (rtField w) } ]

/-- The rows of spec/41_logical.md. -/
def logicRows : List OpRow :=
  [ { mnemonic := "AND", mask := 0xFC0007FF, value := 0x00000024, build := fun w => .and (rdField w) (rsField w) (rtField w) },
    { mnemonic := "ANDI", mask := 0xFC000000, value := 0x30000000, build := fun w => .andi (rtField w) (rsField w) (immField w) },
    { mnemonic := "NOR", mask := 0xFC0007FF, value := 0x00000027, build := fun w => .nor (rdField w) (rsField w) (rtField w) },
    { mnemonic := "OR", mask := 0xFC0007FF, value := 0x00000025, build := fun w => .or (rdField w) (rsField w) (rtField w) },
    { mnemonic := "ORI", mask := 0xFC000000, value := 0x34000000, build := fun w => .ori (rtField w) (rsField w) (immField w) },
    { mnemonic := "XOR", mask := 0xFC0007FF, value := 0x00000026, build := fun w => .xor (rdField w) (rsField w) (rtField w) },
    { mnemonic := "XORI", mask := 0xFC000000, value := 0x38000000, build := fun w => .xori (rtField w) (rsField w) (immField w) },
    { mnemonic := "LUI", mask := 0xFFE00000, value := 0x3C000000, build := fun w => .lui (rtField w) (immField w) } ]

/-- The rows of spec/42_shift.md. -/
def shiftRows : List OpRow :=
  [ { mnemonic := "SLL", mask := 0xFFE0003F, value := 0x00000000, build := fun w => .sll (rdField w) (rtField w) (saField w) },
    { mnemonic := "SLLV", mask := 0xFC0007FF, value := 0x00000004, build := fun w => .sllv (rdField w) (rtField w) (rsField w) },
    { mnemonic := "SRA", mask := 0xFFE0003F, value := 0x00000003, build := fun w => .sra (rdField w) (rtField w) (saField w) },
    { mnemonic := "SRAV", mask := 0xFC0007FF, value := 0x00000007, build := fun w => .srav (rdField w) (rtField w) (rsField w) },
    { mnemonic := "SRL", mask := 0xFFE0003F, value := 0x00000002, build := fun w => .srl (rdField w) (rtField w) (saField w) },
    { mnemonic := "SRLV", mask := 0xFC0007FF, value := 0x00000006, build := fun w => .srlv (rdField w) (rtField w) (rsField w) } ]

/-- The rows of spec/43_multiply_hilo.md. -/
def multRows : List OpRow :=
  [ { mnemonic := "MULT", mask := 0xFC00FFFF, value := 0x00000018, build := fun w => .mult (rsField w) (rtField w) },
    { mnemonic := "MULTU", mask := 0xFC00FFFF, value := 0x00000019, build := fun w => .multu (rsField w) (rtField w) },
    { mnemonic := "MFHI", mask := 0xFFFF07FF, value := 0x00000010, build := fun w => .mfhi (rdField w) },
    { mnemonic := "MFLO", mask := 0xFFFF07FF, value := 0x00000012, build := fun w => .mflo (rdField w) },
    { mnemonic := "MTHI", mask := 0xFC1FFFFF, value := 0x00000011, build := fun w => .mthi (rsField w) },
    { mnemonic := "MTLO", mask := 0xFC1FFFFF, value := 0x00000013, build := fun w => .mtlo (rsField w) } ]

/-- The rows of spec/44_branch.md. -/
def branchRows : List OpRow :=
  [ { mnemonic := "BEQ", mask := 0xFC000000, value := 0x10000000, build := fun w => .beq (rsField w) (rtField w) (immField w) },
    { mnemonic := "BNE", mask := 0xFC000000, value := 0x14000000, build := fun w => .bne (rsField w) (rtField w) (immField w) },
    { mnemonic := "BGEZ", mask := 0xFC1F0000, value := 0x04010000, build := fun w => .bgez (rsField w) (immField w) },
    { mnemonic := "BGEZAL", mask := 0xFC1F0000, value := 0x04110000, build := fun w => .bgezal (rsField w) (immField w) },
    { mnemonic := "BGTZ", mask := 0xFC1F0000, value := 0x1C000000, build := fun w => .bgtz (rsField w) (immField w) },
    { mnemonic := "BLEZ", mask := 0xFC1F0000, value := 0x18000000, build := fun w => .blez (rsField w) (immField w) },
    { mnemonic := "BLTZ", mask := 0xFC1F0000, value := 0x04000000, build := fun w => .bltz (rsField w) (immField w) },
    { mnemonic := "BLTZAL", mask := 0xFC1F0000, value := 0x04100000, build := fun w => .bltzal (rsField w) (immField w) } ]

/-- The rows of spec/45_jump.md. -/
def jumpRows : List OpRow :=
  [ { mnemonic := "J", mask := 0xFC000000, value := 0x08000000, build := fun w => .j (indexField w) },
    { mnemonic := "JAL", mask := 0xFC000000, value := 0x0C000000, build := fun w => .jal (indexField w) },
    { mnemonic := "JR", mask := 0xFC1FFFFF, value := 0x00000008, build := fun w => .jr (rsField w) },
    { mnemonic := "JALR", mask := 0xFC1F07FF, value := 0x00000009, build := fun w => .jalr (rdField w) (rsField w) } ]

/-- The rows of spec/46_load_store.md. -/
def memoryRows : List OpRow :=
  [ { mnemonic := "LW", mask := 0xFC000000, value := 0x8C000000, build := fun w => .lw (rtField w) (immField w) (rsField w) },
    { mnemonic := "SW", mask := 0xFC000000, value := 0xAC000000, build := fun w => .sw (rtField w) (immField w) (rsField w) } ]

/-- The rows of spec/47_coprocessor0.md. -/
def cop0Rows : List OpRow :=
  [ { mnemonic := "COP0", mask := 0xFFE00000, value := 0x40200000, build := fun w => .cop0 (copFunField w) },
    { mnemonic := "MFC0", mask := 0xFFE007FF, value := 0x40000000, build := fun w => .mfc0 (rtField w) (rdField w) },
    { mnemonic := "MTC0", mask := 0xFFE007FF, value := 0x40800000, build := fun w => .mtc0 (rtField w) (rdField w) },
    { mnemonic := "LWC0", mask := 0xFC000000, value := 0xC0000000, build := fun w => .lwc0 (rtField w) (immField w) (rsField w) },
    { mnemonic := "SWC0", mask := 0xFC000000, value := 0xE0000000, build := fun w => .swc0 (rtField w) (immField w) (rsField w) } ]

/-- The rows of spec/48_trap_instructions.md. -/
def trapRows : List OpRow :=
  [ { mnemonic := "BREAK", mask := 0xFC00003F, value := 0x0000000D, build := fun w => .brk (codeField w) },
    { mnemonic := "SYSCALL", mask := 0xFC00003F, value := 0x0000000C, build := fun w => .syscall (codeField w) } ]

/-- The 51 rows of spec/opcode_table.json. Their order does not matter: no word matches two of them (R97). -/
def opRows : List OpRow :=
  arithRows ++ logicRows ++ shiftRows ++ multRows ++ branchRows ++ jumpRows ++ memoryRows ++ cop0Rows ++ trapRows

/-- `(w AND mask) = match` (R97). -/
def OpRow.matches (r : OpRow) (w : Word) : Bool := w &&& r.mask == r.value

/-- Why a byte string is no instruction. -/
inductive DecodeError where
  /-- The word matches no row of the table: a reserved encoding (R99 to R101). -/
  | reservedEncoding (w : Word)
  /-- Fewer than the four bytes of an instruction (R80). -/
  | truncated
deriving DecidableEq, Repr

/-- The instruction of the word `w` (R97), or the reserved encoding it is (R99). -/
def decode (w : Word) : Except DecodeError Instr :=
  match opRows.find? (fun r => r.matches w) with
  | some r => .ok (r.build w)
  | none => .error (.reservedEncoding w)

/-- The first instruction of a byte string in the byte order `e`, and the bytes after it. Every instruction is
four bytes (R80). -/
def decodeBytes (e : Endian) : List Byte → Except DecodeError (Instr × List Byte)
  | b0 :: b1 :: b2 :: b3 :: rest =>
    match decode (joinBytes e b0 b1 b2 b3) with
    | .ok i => .ok (i, rest)
    | .error d => .error d
  | _ => .error .truncated

/-- The instruction the decoder reads from the bits `w` of a row of spec/opcode_table.json: the low `nbits`
bits of `w`, the others 0, laid out as the four bytes of a word. -/
def decodeTableWord (nbits w : Nat) : Option Instr :=
  let word : Word := BitVec.ofNat 32 (w % 2 ^ nbits)
  let e := Config.atReset.endian
  match decodeBytes e [byteAt e word 0, byteAt e word 1, byteAt e word 2, byteAt e word 3] with
  | .ok (i, _) => some i
  | .error _ => none

/-! ## The encoder, by the layouts of R81 -/

/-- Layout `R3`, under the major opcode SPECIAL. -/
def layoutR3 (rs rt rd : RegNum) (function : BitVec 6) : Word := 0#6 ++ rs ++ rt ++ rd ++ 0#5 ++ function

/-- Layout `RS`. -/
def layoutRS (rt rd : RegNum) (sa : BitVec 5) (function : BitVec 6) : Word :=
  0#6 ++ 0#5 ++ rt ++ rd ++ sa ++ function

/-- Layout `RM`. -/
def layoutRM (rs rt : RegNum) (function : BitVec 6) : Word := 0#6 ++ rs ++ rt ++ 0#5 ++ 0#5 ++ function

/-- Layout `RD`. -/
def layoutRD (rd : RegNum) (function : BitVec 6) : Word := 0#6 ++ 0#5 ++ 0#5 ++ rd ++ 0#5 ++ function

/-- Layout `R1`. -/
def layoutR1 (rs : RegNum) (function : BitVec 6) : Word := 0#6 ++ rs ++ 0#5 ++ 0#5 ++ 0#5 ++ function

/-- Layout `R2J`. -/
def layoutR2J (rs rd : RegNum) (function : BitVec 6) : Word := 0#6 ++ rs ++ 0#5 ++ rd ++ 0#5 ++ function

/-- Layout `RC`. -/
def layoutRC (code : BitVec 20) (function : BitVec 6) : Word := 0#6 ++ code ++ function

/-- Layouts `I` and `IC`. -/
def layoutI (opcode : BitVec 6) (rs rt : RegNum) (immediate : BitVec 16) : Word := opcode ++ rs ++ rt ++ immediate

/-- Layout `RI`, under the major opcode REGIMM (R95). -/
def layoutRI (rs : RegNum) (selector : BitVec 5) (offset : BitVec 16) : Word :=
  0b000001#6 ++ rs ++ selector ++ offset

/-- Layout `J`. -/
def layoutJ (opcode : BitVec 6) (instrIndex : BitVec 26) : Word := opcode ++ instrIndex

/-- Layout `CM`, under the major opcode COP0 (R96). -/
def layoutCM (selector rt cs : BitVec 5) : Word := 0b010000#6 ++ selector ++ rt ++ cs ++ 0#11

/-- Layout `CF`: the major opcode COP0, the selector 00001 (R96, conflict C1) and `cop_fun`. -/
def layoutCF (copFun : BitVec 21) : Word := 0b010000#6 ++ 0b00001#5 ++ copFun

/-- The word of an instruction (R81, R93 to R96). -/
def encode : Instr → Word
  | .add rd rs rt => layoutR3 rs rt rd 0x20
  | .addi rt rs imm => layoutI 0x08 rs rt imm
  | .addiu rt rs imm => layoutI 0x09 rs rt imm
  | .addu rd rs rt => layoutR3 rs rt rd 0x21
  | .and rd rs rt => layoutR3 rs rt rd 0x24
  | .andi rt rs imm => layoutI 0x0C rs rt imm
  | .beq rs rt offset => layoutI 0x04 rs rt offset
  | .bgez rs offset => layoutRI rs 0b00001 offset
  | .bgezal rs offset => layoutRI rs 0b10001 offset
  | .bgtz rs offset => layoutI 0x07 rs 0 offset
  | .blez rs offset => layoutI 0x06 rs 0 offset
  | .bltz rs offset => layoutRI rs 0b00000 offset
  | .bltzal rs offset => layoutRI rs 0b10000 offset
  | .bne rs rt offset => layoutI 0x05 rs rt offset
  | .brk code => layoutRC code 0x0D
  | .cop0 copFun => layoutCF copFun
  | .j index => layoutJ 0x02 index
  | .jal index => layoutJ 0x03 index
  | .jr rs => layoutR1 rs 0x08
  | .jalr rd rs => layoutR2J rs rd 0x09
  | .lui rt imm => layoutI 0x0F 0 rt imm
  | .lw rt offset base => layoutI 0x23 base rt offset
  | .lwc0 cs offset base => layoutI 0x30 base cs offset
  | .mfc0 rt cs => layoutCM 0b00000 rt cs
  | .mfhi rd => layoutRD rd 0x10
  | .mflo rd => layoutRD rd 0x12
  | .mtc0 rt cs => layoutCM 0b00100 rt cs
  | .mthi rs => layoutR1 rs 0x11
  | .mtlo rs => layoutR1 rs 0x13
  | .mult rs rt => layoutRM rs rt 0x18
  | .multu rs rt => layoutRM rs rt 0x19
  | .nor rd rs rt => layoutR3 rs rt rd 0x27
  | .or rd rs rt => layoutR3 rs rt rd 0x25
  | .ori rt rs imm => layoutI 0x0D rs rt imm
  | .sll rd rt sa => layoutRS rt rd sa 0x00
  | .sllv rd rt rs => layoutR3 rs rt rd 0x04
  | .slt rd rs rt => layoutR3 rs rt rd 0x2A
  | .slti rt rs imm => layoutI 0x0A rs rt imm
  | .sltiu rt rs imm => layoutI 0x0B rs rt imm
  | .sltu rd rs rt => layoutR3 rs rt rd 0x2B
  | .sra rd rt sa => layoutRS rt rd sa 0x03
  | .srav rd rt rs => layoutR3 rs rt rd 0x07
  | .srl rd rt sa => layoutRS rt rd sa 0x02
  | .srlv rd rt rs => layoutR3 rs rt rd 0x06
  | .sub rd rs rt => layoutR3 rs rt rd 0x22
  | .subu rd rs rt => layoutR3 rs rt rd 0x23
  | .sw rt offset base => layoutI 0x2B base rt offset
  | .swc0 cs offset base => layoutI 0x38 base cs offset
  | .syscall code => layoutRC code 0x0C
  | .xor rd rs rt => layoutR3 rs rt rd 0x26
  | .xori rt rs imm => layoutI 0x0E rs rt imm

/-- The four bytes of an instruction in the byte order `e`, from the lowest address up. -/
def encodeBytes (e : Endian) (i : Instr) : List Byte :=
  [byteAt e (encode i) 0, byteAt e (encode i) 1, byteAt e (encode i) 2, byteAt e (encode i) 3]

/-! ## Every constructor's decoding, on a word written out from the spec's encoding of it

The words are the `Example` words of the instruction rules (spec/40_arithmetic.md to 48_trap_instructions.md) and
the vectors of spec/95_test_vectors.md parts B1 to B13. -/

theorem decode_add : decode 0x00221820 = .ok (.add 3 1 2) := by decide
theorem decode_addi : decode 0x2022FFFF = .ok (.addi 2 1 0xFFFF) := by decide
theorem decode_addiu : decode 0x24220001 = .ok (.addiu 2 1 1) := by decide
theorem decode_addu : decode 0x00221821 = .ok (.addu 3 1 2) := by decide
theorem decode_and : decode 0x00221824 = .ok (.and 3 1 2) := by decide
theorem decode_andi : decode 0x302200FF = .ok (.andi 2 1 0xFF) := by decide
theorem decode_beq : decode 0x10220003 = .ok (.beq 1 2 3) := by decide
theorem decode_bgez : decode 0x04210003 = .ok (.bgez 1 3) := by decide
theorem decode_bgezal : decode 0x04310003 = .ok (.bgezal 1 3) := by decide
theorem decode_bgtz : decode 0x1C200003 = .ok (.bgtz 1 3) := by decide
theorem decode_blez : decode 0x18200003 = .ok (.blez 1 3) := by decide
theorem decode_bltz : decode 0x04200003 = .ok (.bltz 1 3) := by decide
theorem decode_bltzal : decode 0x04300003 = .ok (.bltzal 1 3) := by decide
theorem decode_bne : decode 0x1420FFFD = .ok (.bne 1 0 0xFFFD) := by decide
theorem decode_brk : decode 0x000001CD = .ok (.brk 7) := by decide
theorem decode_cop0 : decode 0x403FFFFF = .ok (.cop0 0x1FFFFF) := by decide
theorem decode_j : decode 0x08000100 = .ok (.j 0x100) := by decide
theorem decode_jal : decode 0x0C000100 = .ok (.jal 0x100) := by decide
theorem decode_jr : decode 0x03E00008 = .ok (.jr 31) := by decide
theorem decode_jalr : decode 0x0020F809 = .ok (.jalr 31 1) := by decide
theorem decode_lui : decode 0x3C021234 = .ok (.lui 2 0x1234) := by decide
theorem decode_lw : decode 0x8C220008 = .ok (.lw 2 8 1) := by decide
theorem decode_lwc0 : decode 0xC02C0008 = .ok (.lwc0 12 8 1) := by decide
theorem decode_mfc0 : decode 0x40026000 = .ok (.mfc0 2 12) := by decide
theorem decode_mfhi : decode 0x00001810 = .ok (.mfhi 3) := by decide
theorem decode_mflo : decode 0x00001812 = .ok (.mflo 3) := by decide
theorem decode_mtc0 : decode 0x40826000 = .ok (.mtc0 2 12) := by decide
theorem decode_mthi : decode 0x00200011 = .ok (.mthi 1) := by decide
theorem decode_mtlo : decode 0x00200013 = .ok (.mtlo 1) := by decide
theorem decode_mult : decode 0x00220018 = .ok (.mult 1 2) := by decide
theorem decode_multu : decode 0x00220019 = .ok (.multu 1 2) := by decide
theorem decode_nor : decode 0x00221827 = .ok (.nor 3 1 2) := by decide
theorem decode_or : decode 0x00221825 = .ok (.or 3 1 2) := by decide
theorem decode_ori : decode 0x34225678 = .ok (.ori 2 1 0x5678) := by decide
theorem decode_sll : decode 0x00021900 = .ok (.sll 3 2 4) := by decide
theorem decode_sllv : decode 0x00221804 = .ok (.sllv 3 2 1) := by decide
theorem decode_slt : decode 0x0022182A = .ok (.slt 3 1 2) := by decide
theorem decode_slti : decode 0x28220005 = .ok (.slti 2 1 5) := by decide
theorem decode_sltiu : decode 0x2C22FFFF = .ok (.sltiu 2 1 0xFFFF) := by decide
theorem decode_sltu : decode 0x0022182B = .ok (.sltu 3 1 2) := by decide
theorem decode_sra : decode 0x00021903 = .ok (.sra 3 2 4) := by decide
theorem decode_srav : decode 0x00221807 = .ok (.srav 3 2 1) := by decide
theorem decode_srl : decode 0x00021902 = .ok (.srl 3 2 4) := by decide
theorem decode_srlv : decode 0x00221806 = .ok (.srlv 3 2 1) := by decide
theorem decode_sub : decode 0x00221822 = .ok (.sub 3 1 2) := by decide
theorem decode_subu : decode 0x00221823 = .ok (.subu 3 1 2) := by decide
theorem decode_sw : decode 0xAC22FFFC = .ok (.sw 2 0xFFFC 1) := by decide
theorem decode_swc0 : decode 0xE02C0008 = .ok (.swc0 12 8 1) := by decide
theorem decode_syscall : decode 0x0000004C = .ok (.syscall 1) := by decide
theorem decode_xor : decode 0x00221826 = .ok (.xor 3 1 2) := by decide
theorem decode_xori : decode 0x3822FFFF = .ok (.xori 2 1 0xFFFF) := by decide

end Sys2Proof
end

