-- ==== Sys2Proof/Machine/Memory.lean ====
section
/-! DEFINITION. Memory (spec/20_memory.md): one flat space of 32-bit byte addresses (R50, R51), held as the list of
the bytes that have a value, and the set of the word addresses a program has stored to (spec/10_state.md R39). -/

namespace Sys2Proof.Machine

/-- Memory: the (address, byte) pairs of the bytes that have a value, addresses strictly rising. -/
abbrev Memory := List Host.Cell

/-- What an address that is not listed reads as: no value. A word that neither the host loaded nor a program
stored holds no value (R44, decision D32). notes/assumptions/2. -/
def unlistedByte : Option Byte := none

/-- The byte at the address `x`, if it has a value. -/
def Memory.get : Memory → Nat → Option Byte
  | [], _ => unlistedByte
  | (a, b) :: m, x => if x = a then some b else Memory.get m x

/-- The memory with the byte `v` at the address `x`. -/
def Memory.put : Memory → Nat → Byte → Memory
  | [], x, v => [(x, v)]
  | (a, b) :: m, x, v =>
    if x < a then (x, v) :: (a, b) :: m
    else if x = a then (x, v) :: m
    else (a, b) :: Memory.put m x v

/-- The canonical form: addresses strictly rising. (No listed byte can equal what an unlisted address reads as,
since that is no value.) -/
abbrev Memory.wf (m : Memory) : Prop := (m.map Prod.fst).Pairwise (· < ·)

/-- Every listed address is an address of the 32-bit space (R51). -/
abbrev Memory.inSpace (m : Memory) : Prop := ∀ c ∈ m, c.1 < 2 ^ 32

/-- `MemRead(addr, 4)` (R13, R52) at the aligned address `a`: the word there, if all four of its bytes have a
value. -/
def Memory.readWord (m : Memory) (e : Endian) (a : Word) : Option Word :=
  match m.get a.toNat, m.get (a.toNat + 1), m.get (a.toNat + 2), m.get (a.toNat + 3) with
  | some b0, some b1, some b2, some b3 => some (joinBytes e b0 b1 b2 b3)
  | _, _, _, _ => none

/-- `MemWrite(addr, 4, v)` (R13, R52) at the aligned address `a`. -/
def Memory.writeWord (m : Memory) (e : Endian) (a v : Word) : Memory :=
  (((m.put a.toNat (byteAt e v 0)).put (a.toNat + 1) (byteAt e v 1)).put (a.toNat + 2) (byteAt e v 2)).put
    (a.toNat + 3) (byteAt e v 3)

/-- A set of word addresses, strictly rising. -/
abbrev AddrSet := List Nat

/-- The canonical form of a set of addresses. -/
abbrev AddrSet.wf (t : AddrSet) : Prop := t.Pairwise (· < ·)

/-- Whether the address `x` is in the set. -/
def AddrSet.has (t : AddrSet) (x : Nat) : Bool := t.contains x

/-- The set with the address `x`. -/
def AddrSet.insert : AddrSet → Nat → AddrSet
  | [], x => [x]
  | a :: t, x => if x < a then x :: a :: t else if x = a then a :: t else a :: AddrSet.insert t x

/-- The set without the address `x`. -/
def AddrSet.remove (t : AddrSet) (x : Nat) : AddrSet := t.filter (· != x)

/-- `a` is a multiple of 4: `a[1:0] = 0` (R56, R57). -/
def aligned (a : Word) : Bool := field a 0 2 == 0

/-- `a[31:2] || 00` (R56, R57). -/
def alignDown (a : Word) : Word := field a 2 30 ++ 0#2

/-- Whether the word at `a` is in `MemMap` (R53): all its four bytes lie in one range backed by memory. -/
def mapped (c : Config) (a : Word) : Bool :=
  c.memMap.any fun r => r.base ≤ a.toNat && a.toNat + 4 ≤ r.base + r.size

end Sys2Proof.Machine
end

