-- ==== Sys2Proof/Machine/State.lean ====
section
/-! DEFINITION. The state of the machine (spec/10_state.md rule R47), as plain data, why a step can stop, and the
state after reset (spec/10_state.md rules R40 to R45, spec/70_reset_and_hazards.md rule R360). -/

namespace Sys2Proof.Machine

/-- The exception record of R319: which exception, the address of the instruction that raised it, whether that
instruction is in a branch delay slot, and the address from which execution can be resumed. -/
structure ExcRecord where
  kind : ExcKind
  victim : Word
  bd : Bool
  restart : Word
deriving DecidableEq, Repr

/-- The state. -/
structure State where
  /-- The open parameters (R7), fixed for a run (R46): no step changes them. The model's own field
  (notes/assumptions/6). -/
  cfg : Config
  /-- The general registers `x[0] .. x[31]` (R20). `x[0]` is read and written through `State.readGpr` and
  `State.writeGpr` only (R21). -/
  gpr : RegFile
  /-- `HI` (R25). -/
  hi : Word
  /-- `LO` (R25). -/
  lo : Word
  /-- The coprocessor 0 registers `c0[0] .. c0[31]` (R26), read and written through `C0Read` and `C0Write`
  (R27). -/
  c0 : RegFile
  /-- The address of the instruction being executed (R30). -/
  pc : Word
  /-- The address of the instruction executed after it (R33). -/
  npc : Word
  /-- True when the instruction at `pc` is in a branch delay slot: the one executed before it was a branch or
  jump, taken or not (R34). -/
  bd : Bool
  /-- Memory (R39, R52). -/
  mem : Memory
  /-- `stored_set`, the addresses SW and SWC0 have written since launch (R39, R70). -/
  stored : AddrSet
  /-- The record of the last trap taken (R319), which the source keeps at no place it names (R321). The model's
  own field (notes/assumptions/13). -/
  trapRec : Option ExcRecord
  /-- What `InterruptSource` (R330) delivers at the next step boundaries, the nearest first; `[]` is its default
  `none`. The model's own field (notes/assumptions/15). -/
  interrupts : List (Option Nat)
deriving DecidableEq, Repr

/-- Why the machine stops with a fault. -/
inductive Fault where
  /-- `Trapped(rec)` (R320, R368): the parameter `TrapEntry` is `terminal` and a trap ended the run. Raised by
  `takeException`, so by ADD, ADDI and SUB on overflow, BREAK, SYSCALL, a reserved word under
  `RESERVED_POLICY = trap`, an interrupt, and a COP0 whose operation raises an exception (`Cop0Op`). Safe: nothing is said of what the hardware does next (R320). -/
  | trapped (rec : ExcRecord)
deriving DecidableEq, Repr

/-- Why a step is refused: the reasons of R15. Every one is safe: no claim can be made of a refused step. -/
inductive Refusal where
  /-- Raised by `exec`'s arm of an instruction that has no meaning yet. Safe. -/
  | notModelled (mnemonic : String)
  /-- `pc` is not a multiple of 4 (R35 step 1, R57). Raised by `fetch`. Safe. -/
  | misalignedFetch
  /-- `pc` is not in `MemMap` (R35 step 2, R53). Raised by `fetch`. Safe. -/
  | unmappedFetch
  /-- The program stored the word at `pc`, and `SMC_POLICY` is `refuse` (R35 step 3, R70). Raised by `fetch`.
  Safe. -/
  | fetchOfStoredWord
  /-- The word at `pc` is a reserved encoding, and `RESERVED_POLICY` is `refuse` (R35 step 5, R99). Raised by
  `reservedWord`. Safe. -/
  | reservedEncoding
  /-- A branch or jump in a branch delay slot (R35 step 6, R36). Raised by the twelve branches and jumps. Safe. -/
  | branchInDelaySlot
  /-- An UNPREDICTABLE form (R35 step 7): BGEZAL or BLTZAL with `rs = 31` (R211), JALR with `rs = rd` (R236).
  Raised by those three. Safe. -/
  | unpredictable
  /-- A memory word that holds no value is read (R35 step 8, R24, R44). Raised by `fetch` and `State.loadWord`.
  Safe. -/
  | unwrittenRead
  /-- The effective address is not a multiple of 4, and `MISALIGNED_DATA` is `refuse` (R56, R251). Raised by
  `dataAddress`. Safe. -/
  | misalignedData
  /-- The effective address is not in `MemMap` (R53, R251). Raised by `dataAddress`. Safe. -/
  | unmappedAccess
  /-- The COP0 instruction, where `Cop0Op` refuses the operation (R273). Raised by `execCop0`. Safe. -/
  | cop0Operation
deriving DecidableEq, Repr

/-- The outcome of a step: a next state, a trap that ends the run, or a refusal (R15). -/
abbrev Result := Host.Outcome State Fault Refusal

/-- The launch state of R360 and R40 to R44 for the parameters `c` and the memory image `image`: `pc` at
`RESET_PC`, `npc` after it, `bd` false, `stored_set` empty, memory as the host loaded it. The spec gives the
registers no value; here they hold 0. DESIGN CHOICE (notes/assumptions/1): unsafe for a claim that uses it. -/
def State.launch (c : Config) (image : Memory) : State where
  cfg := c
  gpr := Vector.replicate 32 0
  hi := 0
  lo := 0
  c0 := Vector.replicate 32 0
  pc := c.resetPc
  npc := c.resetPc + 4
  bd := false
  mem := image
  stored := []
  trapRec := none
  interrupts := []

/-- The machine right after reset, with nothing loaded. -/
def State.reset : State := State.launch Config.atReset []

end Sys2Proof.Machine

namespace Sys2Proof

/-- FREE VALUE: the address of the exception handler where `TrapEntry` is `custom`. The source gives none (R320). A
function of the whole state and the record, as R7 types `TrapEntry`, so that a coprocessor 0 register can hold it.
notes/assumptions/11. -/
opaque Config.trapEntryPc : Machine.State → Machine.ExcRecord → Word

/-- FREE VALUE: the coprocessor 0 registers after trap entry. R320 lets entry change them to record the
exception and says no more. A function of the whole state and the record, as R7 types `TrapEntry`.
notes/assumptions/12. -/
opaque Config.trapEntryC0 : Machine.State → Machine.ExcRecord → RegFile

/-- FREE VALUE: the general registers after the operation `cop_fun` where `Cop0Op` is `perform`; R23 leaves open
what COP0 writes. notes/assumptions/17. -/
opaque Config.cop0Gprs : BitVec 21 → Machine.State → RegFile

/-- FREE VALUE: the coprocessor 0 registers after it (R47, R273). notes/assumptions/17. -/
opaque Config.cop0File : BitVec 21 → Machine.State → RegFile

/-- FREE VALUE: the outcome of the operation `cop_fun` where `Cop0Op` is `custom`, the function from (`cop_fun`,
state) to an outcome of R7 and R273. notes/assumptions/17. -/
opaque Config.cop0Outcome : BitVec 21 → Machine.State → Cop0Outcome

end Sys2Proof
end

