-- ==== Sys2Proof/Machine/Flags.lean ====
section
/-! DEFINITION. The hardware has no flags (spec/10_state.md rule R29). What stands in their place: the overflow
test of ADD, ADDI and SUB (spec/40_arithmetic.md R121), the 0 or 1 the compares write (R128 to R131), and the
conditions of the branches (spec/44_branch.md R203 to R210). -/

namespace Sys2Proof.Machine

/-- An exact integer result that does not fit in 32 bits: it is outside `-2^31 .. 2^31 - 1` (R121). -/
def overflows (exact : Int) : Bool := exact < -2 ^ 31 || 2 ^ 31 - 1 < exact

/-- 32-bit 2's complement overflow of `a + b` (R121). -/
def addOverflow (a b : Word) : Bool := overflows (a.toInt + b.toInt)

/-- 32-bit 2's complement overflow of `a - b` (R121). -/
def subOverflow (a b : Word) : Bool := overflows (a.toInt - b.toInt)

/-- The word 1 for true, 0 for false (R128). -/
def boolWord (c : Bool) : Word := if c then 1 else 0

/-- `signed(a) < signed(b)` (R128, R129). -/
def lessSigned (a b : Word) : Bool := a.toInt < b.toInt

/-- `unsigned(a) < unsigned(b)` (R130, R131). -/
def lessUnsigned (a b : Word) : Bool := a.toNat < b.toNat

/-- The sign bit, bit 31 (R10). -/
def signBit (a : Word) : Bool := a.getLsbD 31

/-- `signed(a) >= 0`: the sign bit is 0 (R205, R206). -/
def atLeastZero (a : Word) : Bool := !signBit a

/-- `signed(a) > 0`: the sign bit is 0 and the value is not zero (R207). -/
def aboveZero (a : Word) : Bool := !signBit a && a != 0

/-- `signed(a) <= 0`: the sign bit is 1 or the value is zero (R208). -/
def atMostZero (a : Word) : Bool := signBit a || a == 0

/-- `signed(a) < 0`: the sign bit is 1 (R209, R210). -/
def belowZero (a : Word) : Bool := signBit a

end Sys2Proof.Machine
end

