-- ==== Sys2Proof/Machine/Operands.lean ====
section
/-! DEFINITION. The operand forms of the 51 instructions: immediates, shift amounts, branch and jump targets,
effective addresses (spec/30_encoding.md rules R85 to R91, spec/44_branch.md R200, spec/45_jump.md R230,
spec/46_load_store.md R250). -/

namespace Sys2Proof.Machine

/-- `sext_32(immediate)`: ADDI, ADDIU, SLTI, SLTIU (R85) and the offset of loads and stores (R89). -/
def signImm (imm : BitVec 16) : Word := imm.signExtend 32

/-- `zext_32(immediate)`: ANDI, ORI, XORI (R86). -/
def zeroImm (imm : BitVec 16) : Word := imm.zeroExtend 32

/-- `immediate || 0^16`: LUI (R87). -/
def upperImm (imm : BitVec 16) : Word := imm ++ 0#16

/-- `sext_32(offset || 00)`: the conditional branches (R88). -/
def branchOffset (offset : BitVec 16) : Word := (offset ++ 0#2).signExtend 32

/-- `x[rs][4:0]`, the amount of a variable shift (R91, R160). -/
def shiftAmount (v : Word) : BitVec 5 := field v 0 5

/-- The address of the delay slot, `pc + 4`, modulo 2^32 (R37). -/
def delaySlot (pc : Word) : Word := pc + 4

/-- The return link, `pc + 8` (R202, R231), modulo 2^32 (R37). -/
def returnLink (pc : Word) : Word := pc + 8

/-- `BranchTarget(pc, offset)` (R200). -/
def branchTarget (pc : Word) (offset : BitVec 16) : Word := delaySlot pc + branchOffset offset

/-- `RegionTarget(pc, instr_index)` (R230): `(pc + 4)[31:28] || instr_index || 00`. -/
def regionTarget (pc : Word) (instrIndex : BitVec 26) : Word := field (delaySlot pc) 28 4 ++ instrIndex ++ 0#2

/-- The target JR and JALR take from a register (R234, R235): as it is, or `x[rs][31:2] || 00` under
`MISALIGNED_FETCH = force_align` (R57, R237). -/
def registerTarget (c : Config) (v : Word) : Word :=
  match c.misalignedFetch with
  | .refuse => v
  | .forceAlign => alignDown v

/-- `EA = x[base] + sext_32(offset)`, modulo 2^32 (R250). -/
def effectiveAddress (base : Word) (offset : BitVec 16) : Word := base + signImm offset

/-- The checks of R251 on an effective address, in their order, and the aligned address accessed: alignment
(R56), then `MemMap` (R53). -/
def dataAddress (c : Config) (ea : Word) : Except Refusal Word :=
  if aligned ea then
    if mapped c ea then .ok ea else .error .unmappedAccess
  else
    match c.misalignedData with
    | .refuse => .error .misalignedData
    | .forceAlign => if mapped c (alignDown ea) then .ok (alignDown ea) else .error .unmappedAccess

end Sys2Proof.Machine
end

