-- ==== Sys2Proof/Machine/Ops.lean ====
section
/-! DEFINITION. The operations the meanings are built from: registers, memory, how a step ends (spec/10_state.md
rule R35 step 9), and taking an exception (spec/60_exceptions.md rules R319, R320). Returning from one has no
operation of its own: no instruction the source describes returns from an exception (R325); a handler that resumes
does it with JR or JALR, which restore `pc` only (R326), or with an operation of COP0 that the parameter `Cop0Op`
gives (R325). -/

namespace Sys2Proof.Machine

/-! ## Registers -/

/-- `x[r]` (R12): `x[0]` reads 0 (R21). -/
def State.readGpr (s : State) (r : RegNum) : Word := if r = 0 then 0 else s.gpr[r.toNat]

/-- `x[r] <- v` (R12): a write to `x[0]` is discarded (R21). -/
def State.writeGpr (s : State) (r : RegNum) (v : Word) : State :=
  if r = 0 then s else { s with gpr := s.gpr.set r.toNat v }

/-- The general registers replaced by the file `f`; what it has for `x[0]` is discarded (R21). -/
def State.writeGprs (s : State) (f : RegFile) : State := { s with gpr := f.set 0 0 }

/-- `c0[r]` (R12), through `C0Read` (R27, R271). -/
def State.readC0 (s : State) (r : RegNum) : Word :=
  match s.cfg.c0Access with
  | .plain => s.c0[r.toNat]
  | .custom => Config.c0Read s.c0 r

/-- `c0[r] <- v` (R12), through `C0Write` (R27, R271). -/
def State.writeC0 (s : State) (r : RegNum) (v : Word) : State :=
  match s.cfg.c0Access with
  | .plain => { s with c0 := s.c0.set r.toNat v }
  | .custom => { s with c0 := Config.c0Write s.c0 r v }

/-! ## Memory -/

/-- The byte of memory at the address `a`, if it has a value. -/
def State.readByte (s : State) (a : Word) : Option Byte := s.mem.get a.toNat

/-- `MemRead(a, 4)` at an aligned address (R13). -/
def State.readWord (s : State) (a : Word) : Option Word := s.mem.readWord s.cfg.endian a

/-- `MemWrite(a, 4, v)` at an aligned address (R13), and `stored_set <- stored_set + {a}` where `SMC_POLICY` is
`refuse` (R253, R277). -/
def State.writeWord (s : State) (a v : Word) : State :=
  { s with
    mem := s.mem.writeWord s.cfg.endian a v
    stored := match s.cfg.smcPolicy with
      | .refuse => s.stored.insert a.toNat
      | .coherent => s.stored }

/-- The words `ws` written one after the other; an address that is no word of memory (R13, R39) is passed over. -/
def State.writeWords (s : State) : List (Word × Word) → State
  | [] => s
  | (a, v) :: ws => State.writeWords (if aligned a && mapped s.cfg a then s.writeWord a v else s) ws

/-- The word a load of the effective address `ea` fetches, after the checks of R251; a word that holds no value
is refused (R44, R35 step 8). -/
def State.loadWord (s : State) (ea : Word) : Except Refusal Word :=
  match dataAddress s.cfg ea with
  | .ok a =>
    match s.readWord a with
    | some v => .ok v
    | none => .error .unwrittenRead
  | .error r => .error r

/-- The state after a store of `v` at the effective address `ea`, after the checks of R251. -/
def State.storeWord (s : State) (ea v : Word) : Except Refusal State :=
  match dataAddress s.cfg ea with
  | .ok a => .ok (s.writeWord a v)
  | .error r => .error r

/-! ## How a step ends (R35 step 9, R38) -/

/-- After an instruction that is no branch or jump. -/
def State.advance (s : State) : State := { s with pc := s.npc, npc := s.npc + 4, bd := false }

/-- After a branch that is not taken. -/
def State.fallThrough (s : State) : State := { s with pc := s.npc, npc := s.npc + 4, bd := true }

/-- `DelayedJump(target)` (R14, R33): after a taken branch or a jump. -/
def State.delayedJump (s : State) (target : Word) : State := { s with pc := s.npc, npc := target, bd := true }

/-- After a conditional branch: taken, or not (R201). -/
def State.branchIf (s : State) (taken : Bool) (target : Word) : State :=
  if taken then s.delayedJump target else s.fallThrough

/-- `x[r] <- v`, and on to the next instruction. -/
def State.writeAndAdvance (s : State) (r : RegNum) (v : Word) : Result := .next (s.writeGpr r v).advance

/-- The next state of an instruction whose checks may refuse it. -/
def State.finish : Except Refusal State → Result
  | .ok t => .next t.advance
  | .error r => .refused r

/-- The check of R36 and R35 step 6: a branch or jump in a delay slot is refused. -/
def State.outsideDelaySlot (s : State) (t : Result) : Result := if s.bd then .refused .branchInDelaySlot else t

/-- The check of R35 step 7: an UNPREDICTABLE form is refused (R211, R236). -/
def unlessUnpredictable (forbidden : Bool) (t : Result) : Result := if forbidden then .refused .unpredictable else t

/-! ## Taking an exception -/

/-- The exception record of R319: `victim` is the instruction at `pc`; `restart` is `pc`, or `pc - 4`, the
branch, in a delay slot. -/
def State.excRecord (s : State) (kind : ExcKind) : ExcRecord where
  kind := kind
  victim := s.pc
  bd := s.bd
  restart := if s.bd then s.pc - 4 else s.pc

/-- Trap entry at the handler address `a` (R320): general registers, HI, LO and memory as they were, `pc` at the
handler, `npc` after it, `bd` clear, the coprocessor 0 registers free. -/
def State.enterHandler (s : State) (a : Word) (r : ExcRecord) : State :=
  { s with c0 := Config.trapEntryC0 s r, pc := a, npc := a + 4, bd := false, trapRec := some r }

/-- The handler address `TrapEntry` gives the record `r`, if it is not `terminal` (R320). -/
def State.handlerAddress (s : State) (r : ExcRecord) : Option Word :=
  match s.cfg.trapEntry with
  | .terminal => none
  | .handler a => some a
  | .custom => some (Config.trapEntryPc s r)

/-- `raise kind` (R15, R319): nothing of the instruction is committed, and `TrapEntry` says where control goes
(R320). -/
def takeException (s : State) (kind : ExcKind) : Result :=
  match s.handlerAddress (s.excRecord kind) with
  | none => .fault (.trapped (s.excRecord kind))
  | some a => .next (s.enterHandler a (s.excRecord kind))

/-- The outcome of a word that is a reserved encoding (R99). -/
def reservedWord (s : State) : Result :=
  match s.cfg.reservedPolicy with
  | .refuse => .refused .reservedEncoding
  | .trap => takeException s .reservedInstruction

/-! ## The coprocessor system (R273) -/

/-- `Cop0Op(copFun, s)` (R7, R273). Where it is `perform` the operation writes no more than general registers
(R23) and coprocessor 0 registers (R47), and the next instruction follows. -/
def State.cop0Outcome (s : State) (copFun : BitVec 21) : Cop0Outcome :=
  match s.cfg.cop0Op with
  | .refuse => .refused
  | .perform => .completes
      { gpr := Config.cop0Gprs copFun s, hi := s.hi, lo := s.lo, c0 := Config.cop0File copFun s, writes := [],
        control := .goOn }
  | .custom => Config.cop0Outcome copFun s

/-- Where control goes after an operation that completes; an address it gives is taken as JR takes its own (R57). -/
def State.cop0Control (s : State) : Cop0Control → State
  | .goOn => s.advance
  | .goTo a => { s with pc := registerTarget s.cfg a, npc := registerTarget s.cfg a + 4, bd := false }
  | .goToSlot a target => { s with pc := registerTarget s.cfg a, npc := registerTarget s.cfg target, bd := true }

/-- The state after an operation that completes. -/
def State.applyCop0 (s : State) (e : Cop0Effect) : State :=
  State.cop0Control { (s.writeWords e.writes).writeGprs e.gpr with hi := e.hi, lo := e.lo, c0 := e.c0 } e.control

/-- The outcome of the step whose operation has the outcome `o`. -/
def State.finishCop0 (s : State) (o : Cop0Outcome) : Result :=
  match o with
  | .refused => .refused .cop0Operation
  | .raises kind => takeException s kind
  | .completes e => .next (s.applyCop0 e)

/-! ## Fetching an instruction, and interrupts -/

/-- Steps 1 to 4 of R35: the word at `pc`, or why it is not fetched. -/
def fetch (s : State) : Except Refusal Word :=
  if !aligned s.pc then .error .misalignedFetch
  else if !mapped s.cfg s.pc then .error .unmappedFetch
  else if s.cfg.smcPolicy = .refuse ∧ s.stored.has s.pc.toNat then .error .fetchOfStoredWord
  else
    match s.readWord s.pc with
    | some w => .ok w
    | none => .error .unwrittenRead

/-- The interrupt due before the next instruction, if there is one (R330). -/
def State.arrival (s : State) : Option Nat :=
  match s.interrupts with
  | some n :: _ => some n
  | _ => none

/-- The state once the step boundary has passed. -/
def State.passBoundary (s : State) : State := { s with interrupts := s.interrupts.tail }

/-- The state with no interrupt due before the next instruction. -/
def State.holdInterrupt (s : State) : State :=
  { s with interrupts := match s.interrupts with
      | some _ :: rest => none :: rest
      | l => l }

/-- The host's load of the word `w` where the next instruction is fetched (R367): the four bytes at `pc`, which
no store of the program wrote, with no interrupt due. -/
def State.loadAtPc (s : State) (w : Word) : State :=
  { s.holdInterrupt with
    mem := s.mem.writeWord s.cfg.endian s.pc w
    stored := s.stored.remove s.pc.toNat }

end Sys2Proof.Machine
end

