-- ==== Sys2Proof/Machine/Arith.lean ====
section
/-! DEFINITION. Add, subtract and compare (spec/40_arithmetic.md rules R120 to R131). -/

namespace Sys2Proof.Machine

/-- ADD (R122): Integer Overflow on 32-bit overflow, and then nothing is written. -/
def execAdd (rd rs rt : RegNum) (s : State) : Result :=
  if addOverflow (s.readGpr rs) (s.readGpr rt) then takeException s .integerOverflow
  else s.writeAndAdvance rd (s.readGpr rs + s.readGpr rt)

/-- ADDI (R123): as ADD, on the sign-extended immediate. -/
def execAddi (rt rs : RegNum) (imm : BitVec 16) (s : State) : Result :=
  if addOverflow (s.readGpr rs) (signImm imm) then takeException s .integerOverflow
  else s.writeAndAdvance rt (s.readGpr rs + signImm imm)

/-- ADDIU (R124): modulo 2^32, no exception; the immediate is sign-extended (conflict C7). -/
def execAddiu (rt rs : RegNum) (imm : BitVec 16) (s : State) : Result :=
  s.writeAndAdvance rt (s.readGpr rs + signImm imm)

/-- ADDU (R125): modulo 2^32, no exception. -/
def execAddu (rd rs rt : RegNum) (s : State) : Result := s.writeAndAdvance rd (s.readGpr rs + s.readGpr rt)

/-- SUB (R126): Integer Overflow on 32-bit overflow, and then nothing is written. -/
def execSub (rd rs rt : RegNum) (s : State) : Result :=
  if subOverflow (s.readGpr rs) (s.readGpr rt) then takeException s .integerOverflow
  else s.writeAndAdvance rd (s.readGpr rs - s.readGpr rt)

/-- SUBU (R127): modulo 2^32, no exception. -/
def execSubu (rd rs rt : RegNum) (s : State) : Result := s.writeAndAdvance rd (s.readGpr rs - s.readGpr rt)

/-- SLT (R128): signed. -/
def execSlt (rd rs rt : RegNum) (s : State) : Result :=
  s.writeAndAdvance rd (boolWord (lessSigned (s.readGpr rs) (s.readGpr rt)))

/-- SLTI (R129): signed, against the sign-extended immediate. -/
def execSlti (rt rs : RegNum) (imm : BitVec 16) (s : State) : Result :=
  s.writeAndAdvance rt (boolWord (lessSigned (s.readGpr rs) (signImm imm)))

/-- SLTIU (R130): unsigned, against the sign-extended immediate. -/
def execSltiu (rt rs : RegNum) (imm : BitVec 16) (s : State) : Result :=
  s.writeAndAdvance rt (boolWord (lessUnsigned (s.readGpr rs) (signImm imm)))

/-- SLTU (R131): unsigned. -/
def execSltu (rd rs rt : RegNum) (s : State) : Result :=
  s.writeAndAdvance rd (boolWord (lessUnsigned (s.readGpr rs) (s.readGpr rt)))

end Sys2Proof.Machine
end

