-- ==== Sys2Proof/Machine/Branch.lean ====
section
/-! DEFINITION. The conditional branches (spec/44_branch.md rules R200 to R213). Each is refused in a delay slot (R36); its
condition is read before the delay slot executes (R201). -/

namespace Sys2Proof.Machine

/-- A conditional branch that writes no link (R201). -/
def State.branch (s : State) (taken : Bool) (offset : BitVec 16) : Result :=
  s.outsideDelaySlot (.next (s.branchIf taken (branchTarget s.pc offset)))

/-- A branch and link (R202): `x[31] <- pc + 8`, taken or not unless `LINK_ON_NOT_TAKEN` is false; refused with
`rs = 31` (R211). -/
def State.branchAndLink (s : State) (rs : RegNum) (taken : Bool) (offset : BitVec 16) : Result :=
  s.outsideDelaySlot (unlessUnpredictable (rs == 31) (.next
    ((if taken || s.cfg.linkOnNotTaken then s.writeGpr 31 (returnLink s.pc) else s).branchIf taken
      (branchTarget s.pc offset))))

/-- BEQ (R203). -/
def execBeq (rs rt : RegNum) (offset : BitVec 16) (s : State) : Result :=
  s.branch (s.readGpr rs == s.readGpr rt) offset

/-- BNE (R204). -/
def execBne (rs rt : RegNum) (offset : BitVec 16) (s : State) : Result :=
  s.branch (s.readGpr rs != s.readGpr rt) offset

/-- BGEZ (R205). -/
def execBgez (rs : RegNum) (offset : BitVec 16) (s : State) : Result := s.branch (atLeastZero (s.readGpr rs)) offset

/-- BGEZAL (R206). -/
def execBgezal (rs : RegNum) (offset : BitVec 16) (s : State) : Result :=
  s.branchAndLink rs (atLeastZero (s.readGpr rs)) offset

/-- BGTZ (R207). -/
def execBgtz (rs : RegNum) (offset : BitVec 16) (s : State) : Result := s.branch (aboveZero (s.readGpr rs)) offset

/-- BLEZ (R208). -/
def execBlez (rs : RegNum) (offset : BitVec 16) (s : State) : Result := s.branch (atMostZero (s.readGpr rs)) offset

/-- BLTZ (R209, conflict C5): no link. -/
def execBltz (rs : RegNum) (offset : BitVec 16) (s : State) : Result := s.branch (belowZero (s.readGpr rs)) offset

/-- BLTZAL (R210). -/
def execBltzal (rs : RegNum) (offset : BitVec 16) (s : State) : Result :=
  s.branchAndLink rs (belowZero (s.readGpr rs)) offset

end Sys2Proof.Machine
end

