-- ==== Sys2Proof/Machine/Coprocessor0.lean ====
section
/-! DEFINITION. The coprocessor 0 instructions (spec/47_coprocessor0.md rules R270 to R277). None checks a mode (R272). -/

namespace Sys2Proof.Machine

/-- COP0 (R273): `outcome <- Cop0Op(copFun, state)`. -/
def execCop0 (copFun : BitVec 21) (s : State) : Result := s.finishCop0 (s.cop0Outcome copFun)

/-- MFC0 (R274). -/
def execMfc0 (rt cs : RegNum) (s : State) : Result := s.writeAndAdvance rt (s.readC0 cs)

/-- MTC0 (R275, conflict C4). -/
def execMtc0 (rt cs : RegNum) (s : State) : Result := .next (s.writeC0 cs (s.readGpr rt)).advance

/-- LWC0 (R276). -/
def execLwc0 (cs : RegNum) (offset : BitVec 16) (base : RegNum) (s : State) : Result :=
  State.finish ((s.loadWord (effectiveAddress (s.readGpr base) offset)).map (s.writeC0 cs))

/-- SWC0 (R277, conflict C3). -/
def execSwc0 (cs : RegNum) (offset : BitVec 16) (base : RegNum) (s : State) : Result :=
  State.finish (s.storeWord (effectiveAddress (s.readGpr base) offset) (s.readC0 cs))

end Sys2Proof.Machine
end

