-- ==== Sys2Proof/Machine/Jump.lean ====
section
/-! DEFINITION. The jumps (spec/45_jump.md rules R230 to R237). Each is refused in a delay slot (R36). -/

namespace Sys2Proof.Machine

/-- J (R232). -/
def execJ (instrIndex : BitVec 26) (s : State) : Result :=
  s.outsideDelaySlot (.next (s.delayedJump (regionTarget s.pc instrIndex)))

/-- JAL (R233): `x[31] <- pc + 8`. -/
def execJal (instrIndex : BitVec 26) (s : State) : Result :=
  s.outsideDelaySlot (.next ((s.writeGpr 31 (returnLink s.pc)).delayedJump (regionTarget s.pc instrIndex)))

/-- JR (R234). -/
def execJr (rs : RegNum) (s : State) : Result :=
  s.outsideDelaySlot (.next (s.delayedJump (registerTarget s.cfg (s.readGpr rs))))

/-- JALR (R235): `x[rd] <- pc + 8`, the target read before; refused with `rs = rd` (R236). -/
def execJalr (rd rs : RegNum) (s : State) : Result :=
  s.outsideDelaySlot (unlessUnpredictable (rs == rd) (.next
    ((s.writeGpr rd (returnLink s.pc)).delayedJump (registerTarget s.cfg (s.readGpr rs)))))

end Sys2Proof.Machine
end

