-- ==== Sys2Proof/Machine/LoadStore.lean ====
section
/-! DEFINITION. Load and store word (spec/46_load_store.md rules R250 to R253). -/

namespace Sys2Proof.Machine

/-- LW (R252). -/
def execLw (rt : RegNum) (offset : BitVec 16) (base : RegNum) (s : State) : Result :=
  State.finish ((s.loadWord (effectiveAddress (s.readGpr base) offset)).map (s.writeGpr rt))

/-- SW (R253). -/
def execSw (rt : RegNum) (offset : BitVec 16) (base : RegNum) (s : State) : Result :=
  State.finish (s.storeWord (effectiveAddress (s.readGpr base) offset) (s.readGpr rt))

end Sys2Proof.Machine
end

