-- ==== Sys2Proof/Machine/Logic.lean ====
section
/-! DEFINITION. The logical instructions and LUI (spec/41_logical.md rules R140 to R148). -/

namespace Sys2Proof.Machine

/-- AND (R141). -/
def execAnd (rd rs rt : RegNum) (s : State) : Result := s.writeAndAdvance rd (s.readGpr rs &&& s.readGpr rt)

/-- ANDI (R142): the immediate is zero-extended. -/
def execAndi (rt rs : RegNum) (imm : BitVec 16) (s : State) : Result :=
  s.writeAndAdvance rt (s.readGpr rs &&& zeroImm imm)

/-- NOR (R143). -/
def execNor (rd rs rt : RegNum) (s : State) : Result := s.writeAndAdvance rd (~~~(s.readGpr rs ||| s.readGpr rt))

/-- OR (R144). -/
def execOr (rd rs rt : RegNum) (s : State) : Result := s.writeAndAdvance rd (s.readGpr rs ||| s.readGpr rt)

/-- ORI (R145): the immediate is zero-extended. -/
def execOri (rt rs : RegNum) (imm : BitVec 16) (s : State) : Result :=
  s.writeAndAdvance rt (s.readGpr rs ||| zeroImm imm)

/-- XOR (R146). -/
def execXor (rd rs rt : RegNum) (s : State) : Result := s.writeAndAdvance rd (s.readGpr rs ^^^ s.readGpr rt)

/-- XORI (R147): the immediate is zero-extended. -/
def execXori (rt rs : RegNum) (imm : BitVec 16) (s : State) : Result :=
  s.writeAndAdvance rt (s.readGpr rs ^^^ zeroImm imm)

/-- LUI (R148): the immediate in bits 31..16, zeros below. -/
def execLui (rt : RegNum) (imm : BitVec 16) (s : State) : Result := s.writeAndAdvance rt (upperImm imm)

end Sys2Proof.Machine
end

