-- ==== Sys2Proof/Machine/MulHiLo.lean ====
section
/-! DEFINITION. Multiply, and the moves of HI and LO (spec/43_multiply_hilo.md rules R180 to R187). -/

namespace Sys2Proof.Machine

/-- The low and the high word of a 64-bit product into LO and HI (R180, conflict C9), and on. -/
def State.writeProduct (s : State) (p : BitVec 64) : Result :=
  .next { s with lo := p.extractLsb' 0 32, hi := p.extractLsb' 32 32 }.advance

/-- MULT (R181): signed. -/
def execMult (rs rt : RegNum) (s : State) : Result :=
  s.writeProduct (BitVec.ofInt 64 ((s.readGpr rs).toInt * (s.readGpr rt).toInt))

/-- MULTU (R182): unsigned. -/
def execMultu (rs rt : RegNum) (s : State) : Result :=
  s.writeProduct (BitVec.ofNat 64 ((s.readGpr rs).toNat * (s.readGpr rt).toNat))

/-- MFHI (R183). -/
def execMfhi (rd : RegNum) (s : State) : Result := s.writeAndAdvance rd s.hi

/-- MFLO (R184). -/
def execMflo (rd : RegNum) (s : State) : Result := s.writeAndAdvance rd s.lo

/-- MTHI (R185): LO is unchanged (R187). -/
def execMthi (rs : RegNum) (s : State) : Result := .next { s with hi := s.readGpr rs }.advance

/-- MTLO (R186, conflict C2): HI is unchanged (R187). -/
def execMtlo (rs : RegNum) (s : State) : Result := .next { s with lo := s.readGpr rs }.advance

end Sys2Proof.Machine
end

