-- ==== Sys2Proof/Machine/Shift.lean ====
section
/-! DEFINITION. The shifts (spec/42_shift.md rules R160 to R166): the value is `x[rt]`; the amount is `sa`, or the low five
bits of `x[rs]`. -/

namespace Sys2Proof.Machine

/-- SLL (R161). With all fields zero it is NOP (R102). -/
def execSll (rd rt : RegNum) (sa : BitVec 5) (s : State) : Result := s.writeAndAdvance rd (s.readGpr rt <<< sa)

/-- SLLV (R162). -/
def execSllv (rd rt rs : RegNum) (s : State) : Result :=
  s.writeAndAdvance rd (s.readGpr rt <<< shiftAmount (s.readGpr rs))

/-- SRA (R163). -/
def execSra (rd rt : RegNum) (sa : BitVec 5) (s : State) : Result :=
  s.writeAndAdvance rd ((s.readGpr rt).sshiftRight' sa)

/-- SRAV (R164). -/
def execSrav (rd rt rs : RegNum) (s : State) : Result :=
  s.writeAndAdvance rd ((s.readGpr rt).sshiftRight' (shiftAmount (s.readGpr rs)))

/-- SRL (R165). -/
def execSrl (rd rt : RegNum) (sa : BitVec 5) (s : State) : Result := s.writeAndAdvance rd (s.readGpr rt >>> sa)

/-- SRLV (R166). -/
def execSrlv (rd rt rs : RegNum) (s : State) : Result :=
  s.writeAndAdvance rd (s.readGpr rt >>> shiftAmount (s.readGpr rs))

end Sys2Proof.Machine
end

