-- ==== Sys2Proof/Machine/Trap.lean ====
section
/-! DEFINITION. The trap instructions (spec/48_trap_instructions.md rules R300 to R302). The `code` field has no effect (R92). -/

namespace Sys2Proof.Machine

/-- BREAK (R301). -/
def execBrk (_code : BitVec 20) (s : State) : Result := takeException s .breakpoint

/-- SYSCALL (R302). -/
def execSyscall (_code : BitVec 20) (s : State) : Result := takeException s .systemCall

end Sys2Proof.Machine
end

