-- ==== Sys2Proof/Machine/Dispatch.lean ====
section
/-! DEFINITION. The meaning of every instruction: one arm per constructor of `Instr`, each a direct call of the
instruction's own definition. -/

namespace Sys2Proof.Machine

/-- Execute the instruction `i` at `s.pc` (spec/10_state.md rule R35, steps 6 to 9). -/
def exec (i : Instr) (s : State) : Host.Outcome State Fault Refusal :=
  match i with
  | .add rd rs rt => Sys2Proof.Machine.execAdd rd rs rt s
  | .addi rt rs immediate => Sys2Proof.Machine.execAddi rt rs immediate s
  | .addiu rt rs immediate => Sys2Proof.Machine.execAddiu rt rs immediate s
  | .addu rd rs rt => Sys2Proof.Machine.execAddu rd rs rt s
  | .and rd rs rt => Sys2Proof.Machine.execAnd rd rs rt s
  | .andi rt rs immediate => Sys2Proof.Machine.execAndi rt rs immediate s
  | .beq rs rt offset => Sys2Proof.Machine.execBeq rs rt offset s
  | .bgez rs offset => Sys2Proof.Machine.execBgez rs offset s
  | .bgezal rs offset => Sys2Proof.Machine.execBgezal rs offset s
  | .bgtz rs offset => Sys2Proof.Machine.execBgtz rs offset s
  | .blez rs offset => Sys2Proof.Machine.execBlez rs offset s
  | .bltz rs offset => Sys2Proof.Machine.execBltz rs offset s
  | .bltzal rs offset => Sys2Proof.Machine.execBltzal rs offset s
  | .bne rs rt offset => Sys2Proof.Machine.execBne rs rt offset s
  | .brk code => Sys2Proof.Machine.execBrk code s
  | .cop0 copFun => Sys2Proof.Machine.execCop0 copFun s
  | .j instrIndex => Sys2Proof.Machine.execJ instrIndex s
  | .jal instrIndex => Sys2Proof.Machine.execJal instrIndex s
  | .jr rs => Sys2Proof.Machine.execJr rs s
  | .jalr rd rs => Sys2Proof.Machine.execJalr rd rs s
  | .lui rt immediate => Sys2Proof.Machine.execLui rt immediate s
  | .lw rt offset base => Sys2Proof.Machine.execLw rt offset base s
  | .lwc0 cs offset base => Sys2Proof.Machine.execLwc0 cs offset base s
  | .mfc0 rt cs => Sys2Proof.Machine.execMfc0 rt cs s
  | .mfhi rd => Sys2Proof.Machine.execMfhi rd s
  | .mflo rd => Sys2Proof.Machine.execMflo rd s
  | .mtc0 rt cs => Sys2Proof.Machine.execMtc0 rt cs s
  | .mthi rs => Sys2Proof.Machine.execMthi rs s
  | .mtlo rs => Sys2Proof.Machine.execMtlo rs s
  | .mult rs rt => Sys2Proof.Machine.execMult rs rt s
  | .multu rs rt => Sys2Proof.Machine.execMultu rs rt s
  | .nor rd rs rt => Sys2Proof.Machine.execNor rd rs rt s
  | .or rd rs rt => Sys2Proof.Machine.execOr rd rs rt s
  | .ori rt rs immediate => Sys2Proof.Machine.execOri rt rs immediate s
  | .sll rd rt sa => Sys2Proof.Machine.execSll rd rt sa s
  | .sllv rd rt rs => Sys2Proof.Machine.execSllv rd rt rs s
  | .slt rd rs rt => Sys2Proof.Machine.execSlt rd rs rt s
  | .slti rt rs immediate => Sys2Proof.Machine.execSlti rt rs immediate s
  | .sltiu rt rs immediate => Sys2Proof.Machine.execSltiu rt rs immediate s
  | .sltu rd rs rt => Sys2Proof.Machine.execSltu rd rs rt s
  | .sra rd rt sa => Sys2Proof.Machine.execSra rd rt sa s
  | .srav rd rt rs => Sys2Proof.Machine.execSrav rd rt rs s
  | .srl rd rt sa => Sys2Proof.Machine.execSrl rd rt sa s
  | .srlv rd rt rs => Sys2Proof.Machine.execSrlv rd rt rs s
  | .sub rd rs rt => Sys2Proof.Machine.execSub rd rs rt s
  | .subu rd rs rt => Sys2Proof.Machine.execSubu rd rs rt s
  | .sw rt offset base => Sys2Proof.Machine.execSw rt offset base s
  | .swc0 cs offset base => Sys2Proof.Machine.execSwc0 cs offset base s
  | .syscall code => Sys2Proof.Machine.execSyscall code s
  | .xor rd rs rt => Sys2Proof.Machine.execXor rd rs rt s
  | .xori rt rs immediate => Sys2Proof.Machine.execXori rt rs immediate s

end Sys2Proof.Machine
end

