-- ==== Sys2Proof/Machine/Step.lean ====
section
/-! DEFINITION. One step of the machine (spec/10_state.md rule R35), and how a word is placed where the next step
fetches. -/

namespace Sys2Proof.Machine

/-- R35: fetch and decode the word at `pc` and execute it. -/
def stepInstruction (s : State) : Host.Outcome State Fault Refusal :=
  match fetch s with
  | .error r => .refused r
  | .ok w =>
    match decode w with
    | .ok i => exec i s
    | .error _ => reservedWord s

/-- One step: an interrupt that is due is taken between two instructions (R330); else one instruction is
executed. -/
def step (s : State) : Host.Outcome State Fault Refusal :=
  match s.arrival with
  | some n => takeException s.passBoundary (.interrupt n)
  | none => stepInstruction s.passBoundary

/-- `s` with the low `nbits` bits of `w` loaded as the word its next step fetches: at `pc`, with no interrupt due
there and `pc` not among the stored words. -/
def State.withFetchWord (s : State) (nbits w : Nat) : State := s.loadAtPc (BitVec.ofNat 32 (w % 2 ^ nbits))

end Sys2Proof.Machine
end

