-- ==== Sys2Proof/Safety.lean ====
section
/-! DEFINITION. The words claims are made in: which instructions do what (spec/10_state.md R23, R34,
spec/60_exceptions.md R310), what a step leaves unchanged, the invariant of the machine, and runs
(spec/70_reset_and_hazards.md R364, R368). -/

namespace Sys2Proof.Machine

/-! ## Kinds of instruction -/

/-- The twelve branch and jump instructions (R34, R370). -/
def isBranchOrJump : Instr → Bool
  | .beq _ _ _ | .bne _ _ _ | .bgez _ _ | .bgezal _ _ | .bgtz _ _ | .blez _ _ | .bltz _ _ | .bltzal _ _
  | .j _ | .jal _ | .jr _ | .jalr _ _ => true
  | .add _ _ _ | .addi _ _ _ | .addiu _ _ _ | .addu _ _ _ | .and _ _ _ | .andi _ _ _ | .brk _ | .cop0 _
  | .lui _ _ | .lw _ _ _ | .lwc0 _ _ _ | .mfc0 _ _ | .mfhi _ | .mflo _ | .mtc0 _ _ | .mthi _ | .mtlo _
  | .mult _ _ | .multu _ _ | .nor _ _ _ | .or _ _ _ | .ori _ _ _ | .sll _ _ _ | .sllv _ _ _ | .slt _ _ _
  | .slti _ _ _ | .sltiu _ _ _ | .sltu _ _ _ | .sra _ _ _ | .srav _ _ _ | .srl _ _ _ | .srlv _ _ _
  | .sub _ _ _ | .subu _ _ _ | .sw _ _ _ | .swc0 _ _ _ | .syscall _ | .xor _ _ _ | .xori _ _ _ => false

/-- An integer that is not the signed value of a word: it is outside `-2^31 .. 2^31 - 1` (R121). -/
def outsideSigned (n : Int) : Prop := n < -2 ^ 31 ∨ 2 ^ 31 - 1 < n

/-- The exception an instruction can raise (R310): five instructions have one, the other 46 none. -/
def exceptionOf : Instr → Option ExcKind
  | .add _ _ _ | .addi _ _ _ | .sub _ _ _ => some .integerOverflow
  | .brk _ => some .breakpoint
  | .syscall _ => some .systemCall
  | .addiu _ _ _ | .addu _ _ _ | .and _ _ _ | .andi _ _ _ | .beq _ _ _ | .bgez _ _ | .bgezal _ _ | .bgtz _ _
  | .blez _ _ | .bltz _ _ | .bltzal _ _ | .bne _ _ _ | .cop0 _ | .j _ | .jal _ | .jr _ | .jalr _ _ | .lui _ _
  | .lw _ _ _ | .lwc0 _ _ _ | .mfc0 _ _ | .mfhi _ | .mflo _ | .mtc0 _ _ | .mthi _ | .mtlo _ | .mult _ _
  | .multu _ _ | .nor _ _ _ | .or _ _ _ | .ori _ _ _ | .sll _ _ _ | .sllv _ _ _ | .slt _ _ _ | .slti _ _ _
  | .sltiu _ _ _ | .sltu _ _ _ | .sra _ _ _ | .srav _ _ _ | .srl _ _ _ | .srlv _ _ _ | .subu _ _ _
  | .sw _ _ _ | .swc0 _ _ _ | .xor _ _ _ | .xori _ _ _ => none

/-- When an instruction raises its exception (R310): ADD, ADDI and SUB when the exact signed result is outside
`-2^31 .. 2^31 - 1`, BREAK and SYSCALL always. -/
def raisesIn (s : State) : Instr → Prop
  | .add _ rs rt => outsideSigned ((s.readGpr rs).toInt + (s.readGpr rt).toInt)
  | .addi _ rs imm => outsideSigned ((s.readGpr rs).toInt + imm.toInt)
  | .sub _ rs rt => outsideSigned ((s.readGpr rs).toInt - (s.readGpr rt).toInt)
  | .brk _ | .syscall _ => True
  | _ => False

/-- The effect of the instruction is what the user's function `Cop0Op` says (R7, R273): a COP0, where the parameter
is a function of the user's. -/
def isOpenOperation (s : State) : Instr → Bool
  | .cop0 _ => s.cfg.cop0Op == .custom
  | _ => false

/-- The general register an instruction writes, the last column of R23. COP0's is not given there. -/
def gprWritten : Instr → Option RegNum
  | .add rd _ _ | .addu rd _ _ | .sub rd _ _ | .subu rd _ _ | .and rd _ _ | .or rd _ _ | .xor rd _ _
  | .nor rd _ _ | .slt rd _ _ | .sltu rd _ _ | .sllv rd _ _ | .srlv rd _ _ | .srav rd _ _ | .sll rd _ _
  | .srl rd _ _ | .sra rd _ _ | .mfhi rd | .mflo rd | .jalr rd _ => some rd
  | .addi rt _ _ | .addiu rt _ _ | .slti rt _ _ | .sltiu rt _ _ | .andi rt _ _ | .ori rt _ _ | .xori rt _ _
  | .lui rt _ | .lw rt _ _ | .mfc0 rt _ => some rt
  | .bgezal _ _ | .bltzal _ _ | .jal _ => some 31
  | .mult _ _ | .multu _ _ | .mthi _ | .mtlo _ | .beq _ _ _ | .bne _ _ _ | .bgez _ _ | .bgtz _ _ | .blez _ _
  | .bltz _ _ | .j _ | .jr _ | .sw _ _ _ | .lwc0 _ _ _ | .swc0 _ _ _ | .mtc0 _ _ | .brk _ | .syscall _
  | .cop0 _ => none

/-- SW and SWC0, the instructions that write memory (R47). -/
def storesToMemory : Instr → Bool
  | .sw _ _ _ | .swc0 _ _ _ => true
  | _ => false

/-- The instructions that write HI (R25, R47). -/
def writesHi : Instr → Bool
  | .mult _ _ | .multu _ _ | .mthi _ => true
  | _ => false

/-- The instructions that write LO (R25, R47). -/
def writesLo : Instr → Bool
  | .mult _ _ | .multu _ _ | .mtlo _ => true
  | _ => false

/-- The instructions that write coprocessor 0 registers (R8, R47). -/
def writesC0 : Instr → Bool
  | .mtc0 _ _ | .lwc0 _ _ _ | .cop0 _ => true
  | _ => false

/-- The condition of a conditional branch, on the signed values of its operands; a jump is always taken
(R203 to R210, R232 to R235). -/
def taken (s : State) : Instr → Prop
  | .beq rs rt _ => s.readGpr rs = s.readGpr rt
  | .bne rs rt _ => s.readGpr rs ≠ s.readGpr rt
  | .bgez rs _ | .bgezal rs _ => 0 ≤ (s.readGpr rs).toInt
  | .bgtz rs _ => 0 < (s.readGpr rs).toInt
  | .blez rs _ => (s.readGpr rs).toInt ≤ 0
  | .bltz rs _ | .bltzal rs _ => (s.readGpr rs).toInt < 0
  | .j _ | .jal _ | .jr _ | .jalr _ _ => True
  | _ => False

/-- The target of a branch or jump executed in the state `s` (R38). -/
def target (s : State) : Instr → Word
  | .beq _ _ o | .bne _ _ o | .bgez _ o | .bgezal _ o | .bgtz _ o | .blez _ o | .bltz _ o | .bltzal _ o =>
    branchTarget s.pc o
  | .j x | .jal x => regionTarget s.pc x
  | .jr rs | .jalr _ rs => registerTarget s.cfg (s.readGpr rs)
  | _ => s.npc + 4

/-! ## Reserved words, by their fields (R101) -/

/-- The 21 assigned major opcodes (R93). -/
def assignedOpcodes : List (BitVec 6) :=
  [0x00, 0x01, 0x02, 0x03, 0x04, 0x05, 0x06, 0x07, 0x08, 0x09, 0x0A, 0x0B, 0x0C, 0x0D, 0x0E, 0x0F, 0x10, 0x23,
    0x2B, 0x30, 0x38]

/-- The 26 assigned functions under SPECIAL (R94). -/
def assignedFunctions : List (BitVec 6) :=
  [0x00, 0x02, 0x03, 0x04, 0x06, 0x07, 0x08, 0x09, 0x0C, 0x0D, 0x10, 0x11, 0x12, 0x13, 0x18, 0x19, 0x20, 0x21,
    0x22, 0x23, 0x24, 0x25, 0x26, 0x27, 0x2A, 0x2B]

/-- The four assigned selectors under REGIMM (R95). -/
def assignedRegimm : List (BitVec 5) := [0b00000, 0b00001, 0b10000, 0b10001]

/-- The three assigned selectors under COP0 (R96). -/
def assignedCop0 : List (BitVec 5) := [0b00000, 0b00001, 0b00100]

/-- A must-be-zero field of a word under SPECIAL is not zero (R100), by the function `fn` in bits 5..0. -/
def dirtySpecial (w : Word) (fn : BitVec 6) : Bool :=
  if fn ∈ [0x00, 0x02, 0x03] then field w 21 5 != 0
  else if fn ∈ [0x18, 0x19] then field w 6 10 != 0
  else if fn ∈ [0x10, 0x12] then field w 16 10 != 0 || field w 6 5 != 0
  else if fn ∈ [0x08, 0x11, 0x13] then field w 6 15 != 0
  else if fn = 0x09 then field w 16 5 != 0 || field w 6 5 != 0
  else if fn ∈ [0x0C, 0x0D] then false
  else field w 6 5 != 0

/-- The reserved encodings (R101): the major opcode, the function or the selector is unassigned, or a
must-be-zero field (R100) is not zero. -/
def reservedByFields (w : Word) : Bool :=
  let op := field w 26 6
  if op ∉ assignedOpcodes then true
  else if op = 0x00 then field w 0 6 ∉ assignedFunctions || dirtySpecial w (field w 0 6)
  else if op = 0x01 then field w 16 5 ∉ assignedRegimm
  else if op = 0x06 ∨ op = 0x07 then field w 16 5 != 0
  else if op = 0x0F then field w 21 5 != 0
  else if op = 0x10 then
    field w 21 5 ∉ assignedCop0 || (field w 21 5 != 0b00001 && field w 0 11 != 0)
  else false

/-! ## What a step leaves unchanged -/

/-- The general registers of `t` are those of `s`, but that `rd` holds `v`; `x[0]` reads 0 in both (R21). -/
def GprUpdate (rd : RegNum) (v : Word) (s t : State) : Prop :=
  ∀ r, t.readGpr r = if r = 0 then 0 else if r = rd then v else s.readGpr r

/-- No general register changes. -/
def SameGprs (s t : State) : Prop := ∀ r, t.readGpr r = s.readGpr r

/-- HI, LO and the coprocessor 0 registers do not change. -/
def SameSpecial (s t : State) : Prop := t.hi = s.hi ∧ t.lo = s.lo ∧ t.c0 = s.c0

/-- No byte of memory changes, nor `stored_set`. -/
def SameMemory (s t : State) : Prop := (∀ a, t.readByte a = s.readByte a) ∧ t.stored = s.stored

/-- The model's own fields do not change. -/
def SameModel (s t : State) : Prop :=
  t.cfg = s.cfg ∧ t.trapRec = s.trapRec ∧ t.interrupts = s.interrupts

/-- On to the next instruction, which is in no delay slot (R35 step 9, R38). -/
def GoesOn (s t : State) : Prop := t.pc = s.npc ∧ t.npc = s.npc + 4 ∧ t.bd = false

/-- `t` is `s` with `rd` holding `v` and the next instruction to execute, and nothing else changed. -/
def WritesGprOnly (rd : RegNum) (v : Word) (s t : State) : Prop :=
  GprUpdate rd v s t ∧ SameSpecial s t ∧ SameMemory s t ∧ SameModel s t ∧ GoesOn s t

/-- The exception record of the exception `k` raised at `s.pc` (R319): its `restart` is the branch before the delay
slot, if the instruction is in one. -/
def recordOf (k : ExcKind) (s : State) : ExcRecord :=
  { kind := k, victim := s.pc, bd := s.bd, restart := if s.bd then s.pc - 4 else s.pc }

/-- `TrapEntry` (R320) is no end of the run for a trap with the record `r`, and `a` is the address of the handler:
the one the parameter names, or the one its function computes from the state and the record. -/
def HandlerAt (s : State) (r : ExcRecord) (a : Word) : Prop :=
  s.cfg.trapEntry = .handler a ∨ (s.cfg.trapEntry = .custom ∧ a = Config.trapEntryPc s r)

/-- What trap entry at the handler address `a` with the record `r` makes of the state `s` (R319, R320): `pc` at
the handler, `npc` after it, `bd` clear, general registers, HI, LO and memory as they were; the coprocessor 0
registers may change. -/
def EntersHandler (a : Word) (r : ExcRecord) (s t : State) : Prop :=
  t.pc = a ∧ t.npc = a + 4 ∧ t.bd = false ∧ SameGprs s t ∧ t.hi = s.hi ∧ t.lo = s.lo ∧ SameMemory s t ∧
  t.cfg = s.cfg ∧ t.interrupts = s.interrupts ∧ t.trapRec = some r

/-- The outcome `o` is that the instruction at `s.pc` raises the exception `k` (R319, R320): with `TrapEntry =
terminal` the run ends with the record, with a handler the next state is at it. -/
def Raises (k : ExcKind) (s : State) (o : Result) : Prop :=
  (s.cfg.trapEntry = .terminal → o = .fault (.trapped (recordOf k s))) ∧
  (∀ a, HandlerAt s (recordOf k s) a → ∃ t, o = .next t ∧ EntersHandler a (recordOf k s) s t)

/-- After a branch or jump (R33, R38, R201): the delay slot is next; after it comes `tgt` if `c`, else the
instruction after the delay slot. -/
def BranchOutcome (c : Prop) (tgt : Word) (s t : State) : Prop :=
  t.pc = s.npc ∧ (c → t.npc = tgt) ∧ (¬c → t.npc = s.npc + 4) ∧ t.bd = true

/-- After an operation of the coprocessor system that completes with the effect `e` (R273): the registers it gives
(`x[0]` reads 0, R21); at every word of memory the last word it writes there; no byte outside the words it writes
changes; and control goes where it says, an address being taken as JR takes its own (R57). -/
def Cop0Completes (e : Cop0Effect) (s t : State) : Prop :=
  (∀ r : RegNum, t.readGpr r = if r = 0 then 0 else e.gpr[r.toNat]) ∧ t.hi = e.hi ∧ t.lo = e.lo ∧ t.c0 = e.c0 ∧
  (∀ a : Word, a.toNat % 4 = 0 →
    t.readWord a = if mapped s.cfg a then (e.writes.reverse.lookup a).or (s.readWord a) else s.readWord a) ∧
  (∀ x : Word, (∀ p ∈ e.writes, x.toNat < p.1.toNat ∨ p.1.toNat + 4 ≤ x.toNat) → t.readByte x = s.readByte x) ∧
  (∀ x, x ∈ t.stored ↔ x ∈ s.stored ∨ (s.cfg.smcPolicy = .refuse ∧
    ∃ p ∈ e.writes, p.1.toNat % 4 = 0 ∧ mapped s.cfg p.1 = true ∧ x = p.1.toNat)) ∧
  SameModel s t ∧
  match e.control with
  | .goOn => GoesOn s t
  | .goTo a => t.pc = registerTarget s.cfg a ∧ t.npc = registerTarget s.cfg a + 4 ∧ t.bd = false
  | .goToSlot a target => t.pc = registerTarget s.cfg a ∧ t.npc = registerTarget s.cfg target ∧ t.bd = true

/-- The registers and memory of `t`, about to execute again the instruction that `s` was about to execute: `t`
resumed at the restart address of a trap in the delay slot (R319). -/
def resumedAt (t s : State) : State := { t with pc := s.pc, npc := s.npc, bd := s.bd }

/-! ## The invariant -/

/-- What holds of every state a run reaches: the cell of `x[0]` is 0 (R21); memory and `stored_set` are in
canonical form, inside the 32-bit space, the stored words aligned and with a value (R51, R52, R70); outside a
delay slot `npc` is `pc + 4` (R33, R38). -/
def Sound (s : State) : Prop :=
  s.gpr[0] = 0 ∧ s.mem.wf ∧ s.mem.inSpace ∧ s.stored.wf ∧
  (∀ a ∈ s.stored, a % 4 = 0 ∧ a < 2 ^ 32 ∧ ∀ k < 4, (s.mem.get (a + k)).isSome) ∧
  (s.bd = false → s.npc = s.pc + 4)

/-- `pc` and `npc` are multiples of 4 (R32). -/
def AlignedPc (s : State) : Prop := s.pc.toNat % 4 = 0 ∧ s.npc.toNat % 4 = 0

/-- The states `s` and `t` hold the same words in memory, each in its own byte order, and are alike in
everything else (R54). -/
def SameButByteOrder (s t : State) : Prop :=
  t = { s with cfg := { s.cfg with endian := t.cfg.endian }, mem := t.mem } ∧
  ∀ a : Word, a.toNat % 4 = 0 → t.readWord a = s.readWord a

/-- Two outcomes alike: the same fault, the same refusal, or next states related by `R`. -/
def OutcomesRelated (R : State → State → Prop) : Result → Result → Prop
  | .next s, .next t => R s t
  | .fault f, .fault g => f = g
  | .refused r, .refused q => r = q
  | _, _ => False

/-! ## Runs -/

/-- The next state of an outcome, if it is one. -/
def nextOf : Result → Option State
  | .next t => some t
  | .fault _ => none
  | .refused _ => none

/-- How far a run has come (R368). -/
inductive RunEnd where
  /-- No end yet. -/
  | running (s : State)
  /-- The predicate `HALT` holds of `s`. -/
  | halted (s : State)
  /-- `Trapped(rec)`, with the state before the trapping instruction (R319). -/
  | trapped (rec : ExcRecord) (s : State)
  /-- A step was refused: the run has no meaning from there. -/
  | refused (r : Refusal) (s : State)

/-- The state a run has come to. -/
def RunEnd.state : RunEnd → State
  | .running s | .halted s | .trapped _ s | .refused _ s => s

/-- At most `n` steps of the run from `s`, with `HALT` the predicate `halt` (R368, D24). -/
def runUntil (halt : State → Bool) : Nat → State → RunEnd
  | 0, s => if halt s then .halted s else .running s
  | n + 1, s =>
    if halt s then .halted s
    else
      match step s with
      | .next t => runUntil halt n t
      | .fault (.trapped r) => .trapped r s
      | .refused r => .refused r s

/-- The premise `NothingRefused` of R364, for `n` steps. -/
def NothingRefused (halt : State → Bool) (n : Nat) (s : State) : Prop := ∀ r t, runUntil halt n s ≠ .refused r t

/-- The premise `NoInterrupts` of R364 and R330. -/
def NoInterrupts (s : State) : Prop := ∀ x ∈ s.interrupts, x = none

/-- The premise `ProgramLoaded` of R364: the words `ws` stand at `base` and up, inside `MemMap`. -/
def ProgramLoaded (ws : List Word) (base : Word) (s : State) : Prop :=
  ∀ k, (h : k < ws.length) →
    s.readWord (base + BitVec.ofNat 32 (4 * k)) = some ws[k] ∧ mapped s.cfg (base + BitVec.ofNat 32 (4 * k))

end Sys2Proof.Machine
end

