-- ==== Sys2Proof/Certificates/Slice0/Obligations.lean ====
section
/-! DEFINITION. The statements for the provers. Each docstring names the rule or the section of spec/ it comes
from; OBLIGATIONS.json lists them. -/

open Sys2Proof Sys2Proof.Machine

/-! ## Encoding (spec/30_encoding.md) -/

/-- Sections 1 and 3: every instruction, with every operand at every value of its field, is what its encoded
word decodes to. -/
def Obligations.EncodeThenDecode : Prop := ∀ i : Instr, decode (encode i) = .ok i

/-- Section 3: a word that decodes to an instruction is the word that instruction is encoded as, so each
instruction has one word. -/
def Obligations.DecodeThenEncode : Prop := ∀ (w : Word) (i : Instr), decode w = .ok i → encode i = w

/-- The same of bytes, in either byte order, whatever bytes follow (spec/20_memory.md section 2). -/
def Obligations.BytesEncodeThenDecode : Prop :=
  ∀ (e : Endian) (i : Instr) (rest : List Byte), decodeBytes e (encodeBytes e i ++ rest) = .ok (i, rest)

/-- Section 3, decoding: the table has 51 rows; no word matches two of them; a word that matches a row is that
row's instruction; a word that matches none is reserved. -/
def Obligations.DecodeByTheOneMatchingRow : Prop :=
  opRows.length = 51 ∧
  opRows.Pairwise (fun r q => ∀ w, ¬(r.matches w = true ∧ q.matches w = true)) ∧
  (∀ w, ∀ r ∈ opRows, r.matches w = true → decode w = .ok (r.build w)) ∧
  (∀ w, (∀ r ∈ opRows, r.matches w = false) → decode w = .error (.reservedEncoding w))

/-- Section 4, the list of the reserved encodings: exactly the words with an unassigned major opcode, function or
selector or a must-be-zero field that is not zero are rejected by the decoder. That such a field is reserved is the
spec's own decision D9 (notes/assumptions/9). -/
def Obligations.ReservedEncodingsExactly : Prop :=
  ∀ w : Word, decode w = .error (.reservedEncoding w) ↔ reservedByFields w = true

/-- spec/95_test_vectors.md parts B1 to B13: words of every family, and reserved words. -/
def Obligations.DecodeOfWrittenWords : Prop :=
  decode 0x00221820 = .ok (.add 3 1 2) ∧ decode 0x2022FFFF = .ok (.addi 2 1 0xFFFF) ∧
  decode 0x34225678 = .ok (.ori 2 1 0x5678) ∧ decode 0x00021FC2 = .ok (.srl 3 2 31) ∧
  decode 0x00220018 = .ok (.mult 1 2) ∧ decode 0x04310003 = .ok (.bgezal 1 3) ∧
  decode 0x0C000100 = .ok (.jal 0x100) ∧ decode 0x00202809 = .ok (.jalr 5 1) ∧
  decode 0xAC22FFFC = .ok (.sw 2 0xFFFC 1) ∧ decode 0x40826000 = .ok (.mtc0 2 12) ∧
  decode 0xC02C0008 = .ok (.lwc0 12 8 1) ∧ decode 0x403FFFFF = .ok (.cop0 0x1FFFFF) ∧
  decode 0x03FFFFCD = .ok (.brk 0xFFFFF) ∧ decode 0x00000000 = .ok (.sll 0 0 0) ∧
  decode 0x0000001A = .error (.reservedEncoding 0x0000001A) ∧
  decode 0x00221860 = .error (.reservedEncoding 0x00221860) ∧
  decode 0x40400000 = .error (.reservedEncoding 0x40400000) ∧
  decode 0xFFFFFFFF = .error (.reservedEncoding 0xFFFFFFFF)

/-! ## The step (spec/10_state.md section 5) -/

/-- The instruction cycle: where no interrupt is due and the word at `pc` is fetched, `step` is `exec` of the
instruction it decodes to; all `step` adds is that the step boundary's entry of `interrupts` is used up. That there
is such a list of arrivals, and that a step uses up its first entry, is the model's choice (notes/assumptions/15). -/
def Obligations.StepRunsTheDecodedInstruction : Prop :=
  ∀ (s : State) (w : Word) (i : Instr), s.arrival = none → s.pc.toNat % 4 = 0 → mapped s.cfg s.pc = true →
    (s.cfg.smcPolicy = .coherent ∨ s.pc.toNat ∉ s.stored) → s.readWord s.pc = some w → decode w = .ok i →
    step s = exec i { s with interrupts := s.interrupts.tail }

/-- A word that matches no row is refused, or raises ReservedInstruction like the other exceptions, by
`RESERVED_POLICY`: the spec's own decision D9 on what the source leaves open (notes/assumptions/9). The record and
entry at a handler are its decisions D13 and D14 (notes/assumptions/11, 12, 13, 27). -/
def Obligations.StepOfAReservedWord : Prop :=
  ∀ (s : State) (w : Word) (d : DecodeError), s.interrupts = [] → s.pc.toNat % 4 = 0 → mapped s.cfg s.pc = true →
    (s.cfg.smcPolicy = .coherent ∨ s.pc.toNat ∉ s.stored) → s.readWord s.pc = some w → decode w = .error d →
    (s.cfg.reservedPolicy = .refuse → step s = .refused .reservedEncoding) ∧
    (s.cfg.reservedPolicy = .trap → Raises .reservedInstruction s (step s))

/-- The instruction cycle, steps 1 to 4: the refusals of a fetch, in their order; the spec's own decisions D5, D8, D21,
D32 and D15 (notes/assumptions/8, 10, 31). -/
def Obligations.StepRefusesTheFetch : Prop :=
  ∀ s : State, s.arrival = none →
    (s.pc.toNat % 4 ≠ 0 → step s = .refused .misalignedFetch) ∧
    (s.pc.toNat % 4 = 0 → mapped s.cfg s.pc = false → step s = .refused .unmappedFetch) ∧
    (s.pc.toNat % 4 = 0 → mapped s.cfg s.pc = true → s.cfg.smcPolicy = .refuse → s.pc.toNat ∈ s.stored →
      step s = .refused .fetchOfStoredWord) ∧
    (s.pc.toNat % 4 = 0 → mapped s.cfg s.pc = true → (s.cfg.smcPolicy = .coherent ∨ s.pc.toNat ∉ s.stored) →
      s.readWord s.pc = none → step s = .refused .unwrittenRead)

/-- spec/60_exceptions.md section 5: an interrupt that is due is taken between two instructions, by the same trap
entry. That the arrivals are a list in the state is the model's choice (notes/assumptions/15); the record and entry
at a handler are the spec's decisions D13 and D14 (notes/assumptions/11, 12, 13, 27). -/
def Obligations.InterruptIsTakenBetweenInstructions : Prop :=
  ∀ (s : State) (n : Nat) (rest : List (Option Nat)), s.interrupts = some n :: rest →
    Raises (.interrupt n) { s with interrupts := rest } (step s)

/-! ## Add, subtract, compare (spec/40_arithmetic.md) -/

/-- Section 1, overflow: the exact result is outside `-2^31 .. 2^31 - 1` exactly when the bit tests say so. -/
def Obligations.OverflowBitTests : Prop :=
  ∀ a b : Word,
    ((a.toInt + b.toInt < -2 ^ 31 ∨ 2 ^ 31 - 1 < a.toInt + b.toInt) ↔
      (a.getLsbD 31 = b.getLsbD 31 ∧ (a + b).getLsbD 31 ≠ a.getLsbD 31)) ∧
    ((a.toInt - b.toInt < -2 ^ 31 ∨ 2 ^ 31 - 1 < a.toInt - b.toInt) ↔
      (a.getLsbD 31 ≠ b.getLsbD 31 ∧ (a - b).getLsbD 31 ≠ a.getLsbD 31)) ∧
    (addOverflow a b = true ↔ (a.toInt + b.toInt < -2 ^ 31 ∨ 2 ^ 31 - 1 < a.toInt + b.toInt)) ∧
    (subOverflow a b = true ↔ (a.toInt - b.toInt < -2 ^ 31 ∨ 2 ^ 31 - 1 < a.toInt - b.toInt))

/-- Section 2, ADD, ADDI, SUB: where the exact signed result fits in 32 bits it is written to the destination,
and nothing else changes; a destination `x[0]` discards it. -/
def Obligations.AddAddiSubResult : Prop :=
  ∀ (rd rs rt : RegNum) (imm : BitVec 16) (s : State),
    (-2 ^ 31 ≤ (s.readGpr rs).toInt + (s.readGpr rt).toInt → (s.readGpr rs).toInt + (s.readGpr rt).toInt < 2 ^ 31 →
      ∃ t, exec (.add rd rs rt) s = .next t ∧
        WritesGprOnly rd (BitVec.ofInt 32 ((s.readGpr rs).toInt + (s.readGpr rt).toInt)) s t) ∧
    (-2 ^ 31 ≤ (s.readGpr rs).toInt + imm.toInt → (s.readGpr rs).toInt + imm.toInt < 2 ^ 31 →
      ∃ t, exec (.addi rt rs imm) s = .next t ∧
        WritesGprOnly rt (BitVec.ofInt 32 ((s.readGpr rs).toInt + imm.toInt)) s t) ∧
    (-2 ^ 31 ≤ (s.readGpr rs).toInt - (s.readGpr rt).toInt → (s.readGpr rs).toInt - (s.readGpr rt).toInt < 2 ^ 31 →
      ∃ t, exec (.sub rd rs rt) s = .next t ∧
        WritesGprOnly rd (BitVec.ofInt 32 ((s.readGpr rs).toInt - (s.readGpr rt).toInt)) s t)

/-- Section 2, ADD, ADDI, SUB: where it does not fit, Integer Overflow is raised, whatever the destination, and
the destination is not modified. The record with its restart address, where it is kept and what entry at a handler
does are the spec's own decisions D13 and D14 and the model's choices (notes/assumptions/11, 12, 13, 27). -/
def Obligations.OverflowRaises : Prop :=
  ∀ (rd rs rt : RegNum) (imm : BitVec 16) (s : State),
    ((s.readGpr rs).toInt + (s.readGpr rt).toInt < -2 ^ 31 ∨ 2 ^ 31 ≤ (s.readGpr rs).toInt + (s.readGpr rt).toInt →
      Raises .integerOverflow s (exec (.add rd rs rt) s)) ∧
    ((s.readGpr rs).toInt + imm.toInt < -2 ^ 31 ∨ 2 ^ 31 ≤ (s.readGpr rs).toInt + imm.toInt →
      Raises .integerOverflow s (exec (.addi rt rs imm) s)) ∧
    ((s.readGpr rs).toInt - (s.readGpr rt).toInt < -2 ^ 31 ∨ 2 ^ 31 ≤ (s.readGpr rs).toInt - (s.readGpr rt).toInt →
      Raises .integerOverflow s (exec (.sub rd rs rt) s))

/-- Section 2, ADDIU, ADDU, SUBU: the result modulo 2^32, in every state and for all operands. -/
def Obligations.AddiuAdduSubuResult : Prop :=
  ∀ (rd rs rt : RegNum) (imm : BitVec 16) (s : State),
    (∃ t, exec (.addiu rt rs imm) s = .next t ∧
      WritesGprOnly rt (BitVec.ofInt 32 ((s.readGpr rs).toInt + imm.toInt)) s t) ∧
    (∃ t, exec (.addu rd rs rt) s = .next t ∧
      WritesGprOnly rd (BitVec.ofNat 32 ((s.readGpr rs).toNat + (s.readGpr rt).toNat)) s t) ∧
    (∃ t, exec (.subu rd rs rt) s = .next t ∧
      WritesGprOnly rd (BitVec.ofInt 32 ((s.readGpr rs).toInt - (s.readGpr rt).toInt)) s t)

/-- Section 2, SLT, SLTI, SLTIU, SLTU: the whole word 1 or 0, by the signed or unsigned comparison; the immediate
is sign-extended in both immediate forms. -/
def Obligations.CompareResult : Prop :=
  ∀ (rd rs rt : RegNum) (imm : BitVec 16) (s : State),
    (∃ t, exec (.slt rd rs rt) s = .next t ∧
      WritesGprOnly rd (if (s.readGpr rs).toInt < (s.readGpr rt).toInt then 1 else 0) s t) ∧
    (∃ t, exec (.slti rt rs imm) s = .next t ∧
      WritesGprOnly rt (if (s.readGpr rs).toInt < imm.toInt then 1 else 0) s t) ∧
    (∃ t, exec (.sltiu rt rs imm) s = .next t ∧
      WritesGprOnly rt (if (s.readGpr rs).toNat < (imm.signExtend 32).toNat then 1 else 0) s t) ∧
    (∃ t, exec (.sltu rd rs rt) s = .next t ∧
      WritesGprOnly rd (if (s.readGpr rs).toNat < (s.readGpr rt).toNat then 1 else 0) s t)

/-! ## Logical instructions and LUI (spec/41_logical.md) -/

/-- R140: AND, OR, XOR, NOR, and ANDI, ORI, XORI with the immediate's bits 31..16 zero: each bit of the result is
the function of the same bit of the operands, for all 32; none of them raises anything. -/
def Obligations.LogicalResult : Prop :=
  ∀ (rd rs rt : RegNum) (imm : BitVec 16) (s : State),
    (∃ t v, exec (.and rd rs rt) s = .next t ∧ WritesGprOnly rd v s t ∧
      ∀ i < 32, v.getLsbD i = ((s.readGpr rs).getLsbD i && (s.readGpr rt).getLsbD i)) ∧
    (∃ t v, exec (.or rd rs rt) s = .next t ∧ WritesGprOnly rd v s t ∧
      ∀ i < 32, v.getLsbD i = ((s.readGpr rs).getLsbD i || (s.readGpr rt).getLsbD i)) ∧
    (∃ t v, exec (.xor rd rs rt) s = .next t ∧ WritesGprOnly rd v s t ∧
      ∀ i < 32, v.getLsbD i = ((s.readGpr rs).getLsbD i ^^ (s.readGpr rt).getLsbD i)) ∧
    (∃ t v, exec (.nor rd rs rt) s = .next t ∧ WritesGprOnly rd v s t ∧
      ∀ i < 32, v.getLsbD i = !((s.readGpr rs).getLsbD i || (s.readGpr rt).getLsbD i)) ∧
    (∃ t v, exec (.andi rt rs imm) s = .next t ∧ WritesGprOnly rt v s t ∧
      ∀ i < 32, v.getLsbD i = ((s.readGpr rs).getLsbD i && (decide (i < 16) && imm.getLsbD i))) ∧
    (∃ t v, exec (.ori rt rs imm) s = .next t ∧ WritesGprOnly rt v s t ∧
      ∀ i < 32, v.getLsbD i = ((s.readGpr rs).getLsbD i || (decide (i < 16) && imm.getLsbD i))) ∧
    (∃ t v, exec (.xori rt rs imm) s = .next t ∧ WritesGprOnly rt v s t ∧
      ∀ i < 32, v.getLsbD i = ((s.readGpr rs).getLsbD i ^^ (decide (i < 16) && imm.getLsbD i)))

/-- R87 (spec/30_encoding.md), LUI: the immediate shifted left 16 bits, with zeros below. -/
def Obligations.LuiResult : Prop :=
  ∀ (rt : RegNum) (imm : BitVec 16) (s : State),
    ∃ t v, exec (.lui rt imm) s = .next t ∧ WritesGprOnly rt v s t ∧ v.toNat = imm.toNat * 2 ^ 16 ∧
      ∀ i < 32, v.getLsbD i = (decide (16 ≤ i) && imm.getLsbD (i - 16))

/-! ## Shifts (spec/42_shift.md) -/

/-- R91 (spec/30_encoding.md): SLL, SRL, SRA shift by `sa`; SLLV, SRLV, SRAV by the low five bits of `x[rs]`, its
value modulo 32. Section 1: the result, bit by bit. -/
def Obligations.ShiftResult : Prop :=
  ∀ (rd rt rs : RegNum) (sa : BitVec 5) (s : State) (n : Nat), n = (s.readGpr rs).toNat % 32 →
    (∃ t v, exec (.sll rd rt sa) s = .next t ∧ WritesGprOnly rd v s t ∧
      ∀ i < 32, v.getLsbD i = (decide (sa.toNat ≤ i) && (s.readGpr rt).getLsbD (i - sa.toNat))) ∧
    (∃ t v, exec (.srl rd rt sa) s = .next t ∧ WritesGprOnly rd v s t ∧
      ∀ i < 32, v.getLsbD i = (decide (i + sa.toNat ≤ 31) && (s.readGpr rt).getLsbD (i + sa.toNat))) ∧
    (∃ t v, exec (.sra rd rt sa) s = .next t ∧ WritesGprOnly rd v s t ∧
      ∀ i < 32, v.getLsbD i =
        if i + sa.toNat ≤ 31 then (s.readGpr rt).getLsbD (i + sa.toNat) else (s.readGpr rt).getLsbD 31) ∧
    (∃ t v, exec (.sllv rd rt rs) s = .next t ∧ WritesGprOnly rd v s t ∧
      ∀ i < 32, v.getLsbD i = (decide (n ≤ i) && (s.readGpr rt).getLsbD (i - n))) ∧
    (∃ t v, exec (.srlv rd rt rs) s = .next t ∧ WritesGprOnly rd v s t ∧
      ∀ i < 32, v.getLsbD i = (decide (i + n ≤ 31) && (s.readGpr rt).getLsbD (i + n))) ∧
    (∃ t v, exec (.srav rd rt rs) s = .next t ∧ WritesGprOnly rd v s t ∧
      ∀ i < 32, v.getLsbD i = if i + n ≤ 31 then (s.readGpr rt).getLsbD (i + n) else (s.readGpr rt).getLsbD 31)

/-- Section 1, the arithmetic readings: `v * 2^n mod 2^32`, `floor(unsigned(v) / 2^n)` and
`floor(signed(v) / 2^n)`. -/
def Obligations.ShiftsAreArithmetic : Prop :=
  ∀ (rd rt rs : RegNum) (sa : BitVec 5) (s : State) (n : Nat), rd ≠ 0 → n = (s.readGpr rs).toNat % 32 →
    (∃ t, exec (.sll rd rt sa) s = .next t ∧
      (t.readGpr rd).toNat = (s.readGpr rt).toNat * 2 ^ sa.toNat % 2 ^ 32) ∧
    (∃ t, exec (.srl rd rt sa) s = .next t ∧ (t.readGpr rd).toNat = (s.readGpr rt).toNat / 2 ^ sa.toNat) ∧
    (∃ t, exec (.sra rd rt sa) s = .next t ∧ (t.readGpr rd).toInt = (s.readGpr rt).toInt / 2 ^ sa.toNat) ∧
    (∃ t, exec (.sllv rd rt rs) s = .next t ∧ (t.readGpr rd).toNat = (s.readGpr rt).toNat * 2 ^ n % 2 ^ 32) ∧
    (∃ t, exec (.srlv rd rt rs) s = .next t ∧ (t.readGpr rd).toNat = (s.readGpr rt).toNat / 2 ^ n) ∧
    (∃ t, exec (.srav rd rt rs) s = .next t ∧ (t.readGpr rd).toInt = (s.readGpr rt).toInt / 2 ^ n)

/-! ## Multiply, HI and LO (spec/43_multiply_hilo.md) -/

/-- MULT, MULTU: HI and LO together are the exact product, signed or unsigned; no general register and nothing
else changes. -/
def Obligations.MultiplyResult : Prop :=
  ∀ (rs rt : RegNum) (s : State),
    (∃ t, exec (.mult rs rt) s = .next t ∧
      (t.hi ++ t.lo).toInt = (s.readGpr rs).toInt * (s.readGpr rt).toInt ∧
      SameGprs s t ∧ t.c0 = s.c0 ∧ SameMemory s t ∧ SameModel s t ∧ GoesOn s t) ∧
    (∃ t, exec (.multu rs rt) s = .next t ∧
      (t.hi ++ t.lo).toNat = (s.readGpr rs).toNat * (s.readGpr rt).toNat ∧
      SameGprs s t ∧ t.c0 = s.c0 ∧ SameMemory s t ∧ SameModel s t ∧ GoesOn s t)

/-- Section 1: on the same operands LO is the same for MULT and MULTU, and HI differs by the other operand for
each operand with bit 31 set. -/
def Obligations.MultuHiFromMultHi : Prop :=
  ∀ (rs rt : RegNum) (s : State),
    ∃ t u, exec (.mult rs rt) s = .next t ∧ exec (.multu rs rt) s = .next u ∧ u.lo = t.lo ∧
      u.hi = t.hi + (if (s.readGpr rs).getLsbD 31 then s.readGpr rt else 0) +
        (if (s.readGpr rt).getLsbD 31 then s.readGpr rs else 0)

/-- MFHI, MFLO, MTHI, MTLO: MTHI leaves LO and MTLO leaves HI as it was. -/
def Obligations.HiLoMoveResult : Prop :=
  ∀ (rd rs : RegNum) (s : State),
    (∃ t, exec (.mfhi rd) s = .next t ∧ WritesGprOnly rd s.hi s t) ∧
    (∃ t, exec (.mflo rd) s = .next t ∧ WritesGprOnly rd s.lo s t) ∧
    (∃ t, exec (.mthi rs) s = .next t ∧ t.hi = s.readGpr rs ∧ t.lo = s.lo ∧ t.c0 = s.c0 ∧ SameGprs s t ∧
      SameMemory s t ∧ SameModel s t ∧ GoesOn s t) ∧
    (∃ t, exec (.mtlo rs) s = .next t ∧ t.lo = s.readGpr rs ∧ t.hi = s.hi ∧ t.c0 = s.c0 ∧ SameGprs s t ∧
      SameMemory s t ∧ SameModel s t ∧ GoesOn s t)

/-! ## Branches (spec/44_branch.md) -/

/-- BEQ, BNE, BGEZ, BGTZ, BLEZ, BLTZ outside a delay slot: the condition on the signed values, the target
`pc + 4 + sext(offset || 00)`, and nothing but `pc`, `npc` and `bd` changes. -/
def Obligations.ConditionalBranchResult : Prop :=
  ∀ (rs rt : RegNum) (o : BitVec 16) (s : State) (tgt : Word), s.bd = false →
    tgt = s.pc + 4 + (o ++ 0#2).signExtend 32 →
    (∃ t, exec (.beq rs rt o) s = .next t ∧ BranchOutcome (s.readGpr rs = s.readGpr rt) tgt s t ∧
      SameGprs s t ∧ SameSpecial s t ∧ SameMemory s t ∧ SameModel s t) ∧
    (∃ t, exec (.bne rs rt o) s = .next t ∧ BranchOutcome (s.readGpr rs ≠ s.readGpr rt) tgt s t ∧
      SameGprs s t ∧ SameSpecial s t ∧ SameMemory s t ∧ SameModel s t) ∧
    (∃ t, exec (.bgez rs o) s = .next t ∧ BranchOutcome (0 ≤ (s.readGpr rs).toInt) tgt s t ∧
      SameGprs s t ∧ SameSpecial s t ∧ SameMemory s t ∧ SameModel s t) ∧
    (∃ t, exec (.bgtz rs o) s = .next t ∧ BranchOutcome (0 < (s.readGpr rs).toInt) tgt s t ∧
      SameGprs s t ∧ SameSpecial s t ∧ SameMemory s t ∧ SameModel s t) ∧
    (∃ t, exec (.blez rs o) s = .next t ∧ BranchOutcome ((s.readGpr rs).toInt ≤ 0) tgt s t ∧
      SameGprs s t ∧ SameSpecial s t ∧ SameMemory s t ∧ SameModel s t) ∧
    (∃ t, exec (.bltz rs o) s = .next t ∧ BranchOutcome ((s.readGpr rs).toInt < 0) tgt s t ∧
      SameGprs s t ∧ SameSpecial s t ∧ SameMemory s t ∧ SameModel s t)

/-- BGEZAL, BLTZAL outside a delay slot, `rs` not 31: `x[31]` holds `pc + 8`, taken or not; under
`LINK_ON_NOT_TAKEN = false` it is written only when the branch is taken (the spec's decision D30,
notes/assumptions/18). -/
def Obligations.BranchAndLinkResult : Prop :=
  ∀ (rs : RegNum) (o : BitVec 16) (s : State) (tgt : Word), s.bd = false → rs ≠ 31 →
    tgt = s.pc + 4 + (o ++ 0#2).signExtend 32 →
    (∃ t, exec (.bgezal rs o) s = .next t ∧ BranchOutcome (0 ≤ (s.readGpr rs).toInt) tgt s t ∧
      GprUpdate 31 (if 0 ≤ (s.readGpr rs).toInt ∨ s.cfg.linkOnNotTaken = true then s.pc + 8 else s.readGpr 31) s t ∧
      SameSpecial s t ∧ SameMemory s t ∧ SameModel s t) ∧
    (∃ t, exec (.bltzal rs o) s = .next t ∧ BranchOutcome ((s.readGpr rs).toInt < 0) tgt s t ∧
      GprUpdate 31 (if (s.readGpr rs).toInt < 0 ∨ s.cfg.linkOnNotTaken = true then s.pc + 8 else s.readGpr 31) s t ∧
      SameSpecial s t ∧ SameMemory s t ∧ SameModel s t)

/-- Section 3, and section 3 of spec/45_jump.md: BGEZAL and BLTZAL with `rs = 31`, the words `0x07F1xxxx` and `0x07F0xxxx`, and
JALR with `rs = rd`, `rs = rd = 0` among them, are refused whatever the registers hold. The source calls them
UNPREDICTABLE; the refusal is the spec's own decision D11 (notes/assumptions/22). -/
def Obligations.UnpredictableFormsAreRefused : Prop :=
  (∀ o : BitVec 16, encode (.bgezal 31 o) = 0x07F1#16 ++ o ∧ encode (.bltzal 31 o) = 0x07F0#16 ++ o) ∧
  ∀ s : State, s.bd = false →
    (∀ o, exec (.bgezal 31 o) s = .refused .unpredictable) ∧
    (∀ o, exec (.bltzal 31 o) s = .refused .unpredictable) ∧
    (∀ r, exec (.jalr r r) s = .refused .unpredictable)

/-- Section 5 of spec/10_state.md: a branch or jump in a delay slot is refused, the spec's own decision D10 on what the
source leaves open (notes/assumptions/21). -/
def Obligations.BranchInDelaySlotIsRefused : Prop :=
  ∀ (i : Instr) (s : State), isBranchOrJump i = true → s.bd = true → exec i s = .refused .branchInDelaySlot

/-- R200: the target is `pc + 4` plus four times the signed offset, modulo 2^32, and a multiple of 4 when `pc` is.
R212, the range: exactly the distances from -131072 to 131068 bytes from the delay slot, in steps of 4. -/
def Obligations.BranchTargetArithmetic : Prop :=
  ∀ (pc : Word) (o : BitVec 16),
    branchTarget pc o = BitVec.ofInt 32 (pc.toNat + 4 + 4 * o.toInt) ∧
    -131072 ≤ 4 * o.toInt ∧ 4 * o.toInt ≤ 131068 ∧
    (pc.toNat % 4 = 0 → (branchTarget pc o).toNat % 4 = 0) ∧
    ∀ d : Int, -131072 ≤ d → d ≤ 131068 → d % 4 = 0 → ∃ o', branchTarget pc o' = BitVec.ofInt 32 (pc.toNat + 4 + d)

/-- Sections 1 and 3 of spec/44_branch.md and section 5 of spec/10_state.md: the instruction after a branch or jump
is the one at `pc + 4`; if that is no branch, jump or trap, the one after it is at the target if the branch was
taken, and at `pc + 8` if not, in no delay slot. (A COP0 in the delay slot whose operation is the user's function
goes where that function says: `CoprocessorOperation`.) -/
def Obligations.DelaySlotThenTarget : Prop :=
  ∀ (b i : Instr) (s t u : State), Sound s → isBranchOrJump b = true → exec b s = .next t →
    isBranchOrJump i = false → exceptionOf i = none → isOpenOperation t i = false → exec i t = .next u →
    t.pc = s.pc + 4 ∧ t.bd = true ∧
    (taken s b → u.pc = target s b) ∧ (¬taken s b → u.pc = s.pc + 8) ∧ u.npc = u.pc + 4 ∧ u.bd = false

/-- Section 3: a branch or jump executed, and then executed again from the restart address with what it left in the
registers, has the same effect. -/
def Obligations.BranchesAreReexecutable : Prop :=
  ∀ (b : Instr) (s t : State), isBranchOrJump b = true → exec b s = .next t →
    exec b (resumedAt t s) = .next t

/-! ## Jumps (spec/45_jump.md) -/

/-- J, JAL, JR, JALR outside a delay slot (JALR with `rs` not `rd`): the target, the link `pc + 8`, the target of
JR and JALR read before the link is written; with `rd = 0` the link is discarded. The aligned target under
`MISALIGNED_FETCH = force_align` is the spec's decision D8 (notes/assumptions/8). -/
def Obligations.JumpResult : Prop :=
  ∀ (x : BitVec 26) (rd rs : RegNum) (s : State) (region register : Word), s.bd = false →
    region = ((s.pc + 4).extractLsb' 28 4 ++ x) ++ 0#2 →
    (s.cfg.misalignedFetch = .refuse → register = s.readGpr rs) →
    (s.cfg.misalignedFetch = .forceAlign → register.toNat = (s.readGpr rs).toNat / 4 * 4) →
    (∃ t, exec (.j x) s = .next t ∧ BranchOutcome True region s t ∧
      SameGprs s t ∧ SameSpecial s t ∧ SameMemory s t ∧ SameModel s t) ∧
    (∃ t, exec (.jal x) s = .next t ∧ BranchOutcome True region s t ∧
      GprUpdate 31 (s.pc + 8) s t ∧ SameSpecial s t ∧ SameMemory s t ∧ SameModel s t) ∧
    (∃ t, exec (.jr rs) s = .next t ∧ BranchOutcome True register s t ∧
      SameGprs s t ∧ SameSpecial s t ∧ SameMemory s t ∧ SameModel s t) ∧
    (rs ≠ rd → ∃ t, exec (.jalr rd rs) s = .next t ∧ BranchOutcome True register s t ∧
      GprUpdate rd (s.pc + 8) s t ∧ SameSpecial s t ∧ SameMemory s t ∧ SameModel s t)

/-- R230: the target is the top four bits of the delay slot's address, then the index, then two zeros: a word of
the 256 MB region of the delay slot, and every word of that region is a target. -/
def Obligations.RegionTargetArithmetic : Prop :=
  ∀ (pc : Word) (x : BitVec 26),
    (regionTarget pc x).toNat = (pc.toNat + 4) % 2 ^ 32 / 2 ^ 28 * 2 ^ 28 + 4 * x.toNat ∧
    (regionTarget pc x).toNat / 2 ^ 28 = (pc + 4).toNat / 2 ^ 28 ∧ (regionTarget pc x).toNat % 4 = 0 ∧
    ∀ a : Word, a.toNat % 4 = 0 → a.toNat / 2 ^ 28 = (pc + 4).toNat / 2 ^ 28 → ∃ y, regionTarget pc y = a

/-! ## Memory, loads and stores (spec/20_memory.md, spec/46_load_store.md) -/

/-- Section 1 of spec/20_memory.md: after a write at an aligned address a read gives the word written there, and at
every other aligned address what it gave before; and the bytes outside the four written are as they were, those of
words that hold no value among them. -/
def Obligations.ReadAfterWrite : Prop :=
  ∀ (m : Memory) (e : Endian) (a b v : Word), a.toNat % 4 = 0 → b.toNat % 4 = 0 →
    (m.writeWord e a v).readWord e b = (if b = a then some v else m.readWord e b) ∧
    ∀ x : Nat, x < a.toNat ∨ a.toNat + 4 ≤ x → (m.writeWord e a v).get x = m.get x

/-- Section 1 of spec/46_load_store.md: the effective address is the base plus the signed offset, in bytes, modulo
2^32; and the checks on it, in their order: the spec's own decisions D4, D5, D7 and D15 (notes/assumptions/7, 23,
31). -/
def Obligations.DataAddressChecks : Prop :=
  (∀ (b : Word) (o : BitVec 16), effectiveAddress b o = BitVec.ofInt 32 (b.toNat + o.toInt)) ∧
  ∀ (c : Config) (ea : Word),
    (ea.toNat % 4 = 0 → mapped c ea = true → dataAddress c ea = .ok ea) ∧
    (ea.toNat % 4 = 0 → mapped c ea = false → dataAddress c ea = .error .unmappedAccess) ∧
    (ea.toNat % 4 ≠ 0 → c.misalignedData = .refuse → dataAddress c ea = .error .misalignedData) ∧
    (ea.toNat % 4 ≠ 0 → c.misalignedData = .forceAlign → ∃ a : Word, a.toNat = ea.toNat / 4 * 4 ∧
      dataAddress c ea = if mapped c a then .ok a else .error .unmappedAccess)

/-- Section 1: LW, SW, LWC0 and SWC0 are refused, for the reason the checks give, where the address fails them; and
LW and LWC0 where the word holds no value. -/
def Obligations.FailedAccessIsRefused : Prop :=
  ∀ (r base : RegNum) (o : BitVec 16) (s : State) (ea : Word), ea = effectiveAddress (s.readGpr base) o →
    (∀ q, dataAddress s.cfg ea = .error q →
      exec (.lw r o base) s = .refused q ∧ exec (.sw r o base) s = .refused q ∧
      exec (.lwc0 r o base) s = .refused q ∧ exec (.swc0 r o base) s = .refused q) ∧
    (∀ a, dataAddress s.cfg ea = .ok a → s.readWord a = none →
      exec (.lw r o base) s = .refused .unwrittenRead ∧ exec (.lwc0 r o base) s = .refused .unwrittenRead)

/-- Section 2, LW: the word at the address goes to `x[rt]`; the address comes from the old `x[base]`. -/
def Obligations.LoadWordResult : Prop :=
  ∀ (rt base : RegNum) (o : BitVec 16) (s : State) (a v : Word),
    dataAddress s.cfg (effectiveAddress (s.readGpr base) o) = .ok a → s.readWord a = some v →
    ∃ t, exec (.lw rt o base) s = .next t ∧ WritesGprOnly rt v s t

/-- Section 2, SW: the word at the address holds `x[rt]`, every byte outside it is as it was, and the address is
among the stored ones where `SMC_POLICY` is `refuse`. -/
def Obligations.StoreWordResult : Prop :=
  ∀ (rt base : RegNum) (o : BitVec 16) (s : State) (a : Word),
    dataAddress s.cfg (effectiveAddress (s.readGpr base) o) = .ok a →
    ∃ t, exec (.sw rt o base) s = .next t ∧ t.readWord a = some (s.readGpr rt) ∧
      (∀ x : Word, x.toNat < a.toNat ∨ a.toNat + 4 ≤ x.toNat → t.readByte x = s.readByte x) ∧
      (∀ x, x ∈ t.stored ↔ x ∈ s.stored ∨ (s.cfg.smcPolicy = .refuse ∧ x = a.toNat)) ∧
      SameGprs s t ∧ SameSpecial s t ∧ SameModel s t ∧ GoesOn s t

/-- Sections 7 and 9 of spec/20_memory.md: a load right after a store to the same address gets the word stored,
whichever of SW and SWC0 stored it and whichever of LW and LWC0 loads it; LW to `x[0]` discards it. That a store is
seen by the very next load, and that the four access one memory, are the spec's own decisions D20, D23 and D25
(notes/assumptions/25, 24, 37); that a coprocessor 0 register is plain storage, or has free access functions, is D18
(notes/assumptions/16). -/
def Obligations.StoreThenLoad : Prop :=
  ∀ (rt rd base base' : RegNum) (o o' : BitVec 16) (s t : State) (a v : Word),
    (exec (.sw rt o base) s = .next t ∧ v = s.readGpr rt) ∨
    (exec (.swc0 rt o base) s = .next t ∧ s.cfg.c0Access = .plain ∧ v = s.c0[rt.toNat]) ∨
    (exec (.swc0 rt o base) s = .next t ∧ s.cfg.c0Access = .custom ∧ v = Config.c0Read s.c0 rt) →
    dataAddress s.cfg (effectiveAddress (s.readGpr base) o) = .ok a →
    dataAddress s.cfg (effectiveAddress (s.readGpr base') o') = .ok a →
    (∃ u, exec (.lw rd o' base') t = .next u ∧ GprUpdate rd v s u) ∧
    (∃ u, exec (.lwc0 rd o' base') t = .next u ∧
      (s.cfg.c0Access = .plain → ∀ r : RegNum, u.c0[r.toNat] = if r = rd then v else s.c0[r.toNat]) ∧
      (s.cfg.c0Access = .custom → u.c0 = Config.c0Write s.c0 rd v))

/-! ## Coprocessor 0 (spec/47_coprocessor0.md) -/

/-- MFC0, MTC0, with the access functions at their default, plain storage (the spec's decision D18,
notes/assumptions/16). -/
def Obligations.MoveCoprocessorResult : Prop :=
  ∀ (rt cs : RegNum) (s : State), s.cfg.c0Access = .plain →
    (∃ t, exec (.mfc0 rt cs) s = .next t ∧ WritesGprOnly rt s.c0[cs.toNat] s t) ∧
    (∃ t, exec (.mtc0 rt cs) s = .next t ∧
      (∀ r : RegNum, t.c0[r.toNat] = if r = cs then s.readGpr rt else s.c0[r.toNat]) ∧
      SameGprs s t ∧ t.hi = s.hi ∧ t.lo = s.lo ∧ SameMemory s t ∧ SameModel s t ∧ GoesOn s t)

/-- LWC0, SWC0, with the access functions at their default (the spec's decision D18, notes/assumptions/16). That they
access the memory of LW and SW with the same checks is the spec's decision D25 (notes/assumptions/37). -/
def Obligations.CoprocessorLoadStoreResult : Prop :=
  ∀ (cs base : RegNum) (o : BitVec 16) (s : State) (a : Word), s.cfg.c0Access = .plain →
    dataAddress s.cfg (effectiveAddress (s.readGpr base) o) = .ok a →
    (∀ v, s.readWord a = some v → ∃ t, exec (.lwc0 cs o base) s = .next t ∧
      (∀ r : RegNum, t.c0[r.toNat] = if r = cs then v else s.c0[r.toNat]) ∧
      SameGprs s t ∧ t.hi = s.hi ∧ t.lo = s.lo ∧ SameMemory s t ∧ SameModel s t ∧ GoesOn s t) ∧
    (∃ t, exec (.swc0 cs o base) s = .next t ∧ t.readWord a = some s.c0[cs.toNat] ∧
      (∀ x : Word, x.toNat < a.toNat ∨ a.toNat + 4 ≤ x.toNat → t.readByte x = s.readByte x) ∧
      (∀ x, x ∈ t.stored ↔ x ∈ s.stored ∨ (s.cfg.smcPolicy = .refuse ∧ x = a.toNat)) ∧
      SameGprs s t ∧ SameSpecial s t ∧ SameModel s t ∧ GoesOn s t)

/-- Section 1: every access goes through `C0Read` and `C0Write`, whatever they are (the spec's decision D18,
notes/assumptions/16). That LWC0 and SWC0 access the memory of LW and SW with the same checks is the spec's decision
D25 (notes/assumptions/37). -/
def Obligations.CoprocessorAccessFunctions : Prop :=
  ∀ (rt cs base : RegNum) (o : BitVec 16) (s : State) (a : Word), s.cfg.c0Access = .custom →
    (∃ t, exec (.mfc0 rt cs) s = .next t ∧ WritesGprOnly rt (Config.c0Read s.c0 cs) s t) ∧
    (∃ t, exec (.mtc0 rt cs) s = .next t ∧ t.c0 = Config.c0Write s.c0 cs (s.readGpr rt) ∧ SameGprs s t ∧
      t.hi = s.hi ∧ t.lo = s.lo ∧ SameMemory s t ∧ SameModel s t ∧ GoesOn s t) ∧
    (dataAddress s.cfg (effectiveAddress (s.readGpr base) o) = .ok a →
      (∀ v, s.readWord a = some v → ∃ t, exec (.lwc0 cs o base) s = .next t ∧
        t.c0 = Config.c0Write s.c0 cs v ∧ SameGprs s t ∧ t.hi = s.hi ∧ t.lo = s.lo ∧ SameMemory s t ∧
        SameModel s t ∧ GoesOn s t) ∧
      (∃ t, exec (.swc0 cs o base) s = .next t ∧ t.readWord a = some (Config.c0Read s.c0 cs) ∧
        (∀ x : Word, x.toNat < a.toNat ∨ a.toNat + 4 ≤ x.toNat → t.readByte x = s.readByte x) ∧
        (∀ x, x ∈ t.stored ↔ x ∈ s.stored ∨ (s.cfg.smcPolicy = .refuse ∧ x = a.toNat)) ∧
        SameGprs s t ∧ SameSpecial s t ∧ SameModel s t ∧ GoesOn s t))

/-- Section 2, COP0: with the default `Cop0Op` every operation is refused; where it is `perform`, the operation
completes, writes general registers and coprocessor 0 registers only and goes on to the next instruction, and `x[0]`
still reads 0; where it is `custom`, the outcome is the user's function of `cop_fun` and the state, which may refuse,
raise any exception, or complete with any registers, writes of memory and transfer of control. The parameter is the
spec's decision D19; the three forms it has here, and what it writes being free, are the model's choice
(notes/assumptions/17). -/
def Obligations.CoprocessorOperation : Prop :=
  ∀ (f : BitVec 21) (s : State),
    (s.cfg.cop0Op = .refuse → exec (.cop0 f) s = .refused .cop0Operation) ∧
    (s.cfg.cop0Op = .perform → ∃ t, exec (.cop0 f) s = .next t ∧ t.readGpr 0 = 0 ∧
      (∀ r : RegNum, r ≠ 0 → t.readGpr r = (Config.cop0Gprs f s)[r.toNat]) ∧ t.c0 = Config.cop0File f s ∧
      t.hi = s.hi ∧ t.lo = s.lo ∧ SameMemory s t ∧ SameModel s t ∧ GoesOn s t) ∧
    (s.cfg.cop0Op = .custom → exec (.cop0 f) s = s.finishCop0 (Config.cop0Outcome f s)) ∧
    s.finishCop0 .refused = .refused .cop0Operation ∧ (∀ k, Raises k s (s.finishCop0 (.raises k))) ∧
    ∀ e, ∃ t, s.finishCop0 (.completes e) = .next t ∧ Cop0Completes e s t

/-! ## Exceptions (spec/48_trap_instructions.md, spec/60_exceptions.md) -/

/-- Sections 1 and 3 of spec/60_exceptions.md: every execution of BREAK and of SYSCALL raises its exception, whatever
its code, and does nothing else. The record with its restart address, where it is kept and what entry at a handler
does are the spec's own decisions D13 and D14 and the model's choices (notes/assumptions/11, 12, 13, 27). -/
def Obligations.BreakAndSyscallRaise : Prop :=
  ∀ (code : BitVec 20) (s : State),
    Raises .breakpoint s (exec (.brk code) s) ∧ Raises .systemCall s (exec (.syscall code) s)

/-- The same as a completion: with a handler, BREAK and SYSCALL have a next state, at the handler, with the general
registers, HI, LO and memory as they were. That entry sets `npc` to the handler's second word and clears `bd`, and the
forms a handler address has, are the spec's own decision D13 (notes/assumptions/11). -/
def Obligations.BreakAndSyscallReachTheHandler : Prop :=
  ∀ (code : BitVec 20) (s : State) (a b : Word), HandlerAt s (recordOf .breakpoint s) a →
    HandlerAt s (recordOf .systemCall s) b →
    (∃ t, exec (.brk code) s = .next t ∧ t.pc = a ∧ t.npc = a + 4 ∧ t.bd = false ∧ SameGprs s t ∧ t.hi = s.hi ∧
      t.lo = s.lo ∧ SameMemory s t) ∧
    (∃ t, exec (.syscall code) s = .next t ∧ t.pc = b ∧ t.npc = b + 4 ∧ t.bd = false ∧ SameGprs s t ∧ t.hi = s.hi ∧
      t.lo = s.lo ∧ SameMemory s t)

/-- Section 3: taking an exception: the record, the state at the trap, and where control goes; the spec's own decisions
D13 and D14 (notes/assumptions/11, 12, 13, 27). -/
def Obligations.TakingAnException : Prop := ∀ (s : State) (k : ExcKind), Raises k s (takeException s k)

/-- Section 1 of spec/60_exceptions.md: ADD, ADDI and SUB raise Integer Overflow when, and only when, the exact signed
result is outside `-2^31 .. 2^31 - 1`, with nothing of the instruction committed; BREAK and SYSCALL raise their
exception always; the other 46 instructions raise none, but for a COP0 whose operation is the user's function
(`CoprocessorOperation`). The record, its restart address and what entry at a handler does are the spec's own
decisions D13 and D14 (notes/assumptions/11, 12, 27); that an instruction raises none is told by `trapRec`, the
model's own field (notes/assumptions/13). -/
def Obligations.OnlyFiveInstructionsRaise : Prop :=
  ∀ (i : Instr) (s : State),
    (exceptionOf i = none → isOpenOperation s i = false → (∀ f, exec i s ≠ .fault f) ∧ ∀ t, exec i s = .next t → t.trapRec = s.trapRec) ∧
    (∀ k, exceptionOf i = some k →
      (raisesIn s i → Raises k s (exec i s)) ∧
      (¬raisesIn s i → ∃ t, exec i s = .next t ∧ t.trapRec = s.trapRec))

/-- Section 3, a trap in a delay slot: the victim is the instruction after the branch, the restart address is the
branch, and what the branch wrote, its link among it, stays. The restart address is read from the source by the spec's
decision D14 (notes/assumptions/27); that the record stands in `trapRec` is the model's choice (notes/assumptions/13). -/
def Obligations.TrapInDelaySlotRestartsAtTheBranch : Prop :=
  ∀ (b : Instr) (s t u : State) (k : ExcKind), Sound s → isBranchOrJump b = true → exec b s = .next t →
    takeException t k = .next u →
    u.trapRec = some { kind := k, victim := s.pc + 4, bd := true, restart := s.pc } ∧ SameGprs t u ∧
    ((∃ x, b = .jal x) → u.readGpr 31 = s.pc + 8)

/-! ## The machine as a whole (spec/10_state.md, spec/70_reset_and_hazards.md) -/

/-- Every step keeps the invariant: the cell of `x[0]` is 0, memory and `stored_set` are in canonical form and
inside the address space, the stored words are aligned and hold values, and outside a delay slot `npc` is
`pc + 4`. -/
def Obligations.StepKeepsTheInvariant : Prop := ∀ s t : State, Sound s → step s = .next t → Sound t

/-- The invariant holds of every launch state, the state after reset among them. That the registers hold 0 there is
the model's choice (notes/assumptions/1). -/
def Obligations.InvariantAtLaunch : Prop :=
  (∀ (c : Config) (image : Memory), image.wf → image.inSpace → Sound (State.launch c image)) ∧ Sound State.reset

/-- Along every run the invariant holds and the parameters stay as they were. -/
def Obligations.RunKeepsTheInvariant : Prop :=
  ∀ (halt : State → Bool) (n : Nat) (s : State), Sound s →
    Sound (runUntil halt n s).state ∧ (runUntil halt n s).state.cfg = s.cfg

/-- Section 5 of spec/10_state.md and section 3 of spec/20_memory.md: with `MISALIGNED_FETCH = force_align` and a
handler address that is aligned, `pc` and `npc` stay multiples of 4. That an address a COP0 operation gives is aligned
as JR aligns its own is the model's choice (notes/assumptions/17). -/
def Obligations.PcStaysAligned : Prop :=
  ∀ s t : State, s.cfg.misalignedFetch = .forceAlign →
    (∀ a, s.cfg.trapEntry = .handler a → a.toNat % 4 = 0) →
    (s.cfg.trapEntry = .custom → ∀ u r, (Config.trapEntryPc u r).toNat % 4 = 0) → AlignedPc s → step s = .next t → AlignedPc t

/-- Section 9 of spec/10_state.md, the column "written by": only SW and SWC0 write memory, only MULT, MULTU and MTHI
write HI, only MULT, MULTU and MTLO write LO, only MTC0, LWC0, COP0 and trap entry write coprocessor 0 registers,
and no instruction changes the parameters. A COP0 whose operation is the user's function writes what that function
says (`CoprocessorOperation`; the model's choice, notes/assumptions/17), but no parameter. -/
def Obligations.WhoWritesWhat : Prop :=
  ∀ (i : Instr) (s t : State), exec i s = .next t →
    t.cfg = s.cfg ∧ t.interrupts = s.interrupts ∧
    (isOpenOperation s i = false → (storesToMemory i = false → SameMemory s t) ∧
      (writesHi i = false → t.hi = s.hi) ∧ (writesLo i = false → t.lo = s.lo)) ∧
    (writesC0 i = false → ¬raisesIn s i → t.c0 = s.c0)

/-- Section 1 of spec/10_state.md, the table of the general registers, last column: an instruction other than COP0
changes no general register but the one the table gives it. -/
def Obligations.WhichGprIsWritten : Prop :=
  ∀ (i : Instr) (s t : State) (r : RegNum), (∀ f, i ≠ .cop0 f) → exec i s = .next t →
    gprWritten i ≠ some r → t.readGpr r = s.readGpr r

/-- Section 5 of spec/10_state.md, the table of the program counter, and what `bd` is: true after the twelve
branches and jumps, taken or not, and false after the others and at the handler. ADD, ADDI and SUB go to the handler
exactly on overflow, BREAK and SYSCALL always; the handler's `npc` and `bd` are the spec's decision D13
(notes/assumptions/11). A COP0 whose operation is the user's function goes where that function says
(`CoprocessorOperation`; notes/assumptions/17). -/
def Obligations.HowThePcAdvances : Prop :=
  ∀ (i : Instr) (s t : State), exec i s = .next t →
    (isBranchOrJump i = true → t.pc = s.npc ∧ t.bd = true ∧ (taken s i → t.npc = target s i) ∧
      (¬taken s i → t.npc = s.npc + 4)) ∧
    (isBranchOrJump i = false → ¬raisesIn s i → isOpenOperation s i = false → GoesOn s t) ∧
    (raisesIn s i → ∃ k a, exceptionOf i = some k ∧ HandlerAt s (recordOf k s) a ∧
      t.pc = a ∧ t.npc = a + 4 ∧ t.bd = false)

/-- Section 2 of spec/20_memory.md: no program can observe the byte order. Two states alike but for it, holding the
same words, take alike steps. The parameters that are functions of the whole state (the coprocessor 0 registers
at trap entry, the COP0 operations) are left at their defaults, `terminal` and `refuse`. -/
def Obligations.ByteOrderIsNotObservable : Prop :=
  ∀ s t : State, SameButByteOrder s t → s.cfg.trapEntry = .terminal → s.cfg.cop0Op = .refuse →
    OutcomesRelated SameButByteOrder (step s) (step t)

/-- Section 7 of spec/10_state.md: after reset `pc` is `RESET_PC`, `npc` the word after it, `bd` false, for every
`RESET_PC`, and memory is what the host loaded: the spec's own decisions D22 and D32 (notes/assumptions/28). -/
def Obligations.LaunchState : Prop :=
  ∀ (c : Config) (image : Memory),
    (State.launch c image).pc = c.resetPc ∧ (State.launch c image).npc = c.resetPc + 4 ∧
    (State.launch c image).bd = false ∧ (State.launch c image).stored = [] ∧
    (State.launch c image).readGpr 0 = 0 ∧ (State.launch c image).cfg = c ∧
    (∀ a, (State.launch c image).readByte a = image.get a.toNat)

/-- Section 4 of spec/30_encoding.md, hints and no-operations: `0x00000000` is `SLL r0, r0, 0`; and every instruction
whose only destination is `x[0]`, but a jump or one that can raise an exception, changes nothing but the program
counter. (ADD, ADDI and SUB to `x[0]` stand in `AddAddiSubResult` and `OverflowRaises`.) That a write to
`x[0]` is discarded is no rule of the source: it is the spec's decision D2, PRESUMED from the MIPS family
(notes/assumptions/19). -/
def Obligations.DestinationZeroIsANop : Prop :=
  decode 0 = .ok (.sll 0 0 0) ∧
  (∀ s : State, ∃ t, exec (.sll 0 0 0) s = .next t ∧
    SameGprs s t ∧ SameSpecial s t ∧ SameMemory s t ∧ SameModel s t ∧ GoesOn s t) ∧
  ∀ (i : Instr) (s t : State), gprWritten i = some 0 → isBranchOrJump i = false → exceptionOf i = none →
    exec i s = .next t → SameGprs s t ∧ SameSpecial s t ∧ SameMemory s t ∧ SameModel s t ∧ GoesOn s t

/-- Section 5 of spec/10_state.md and sections 1 and 2 of spec/60_exceptions.md: which instruction can be refused for
which reason; the 34 others are never refused. The refusals are the spec's own decisions D5, D7, D10, D11, D19 and D32
(notes/assumptions/2, 7, 17, 21, 22); that no instruction is refused for a register that nothing has written is the
model's choice, where the spec refuses it (notes/assumptions/1). -/
def Obligations.WhyAnInstructionIsRefused : Prop :=
  ∀ (i : Instr) (s : State) (q : Refusal), exec i s = .refused q →
    (q = .branchInDelaySlot ∧ isBranchOrJump i = true ∧ s.bd = true) ∨
    (q = .unpredictable ∧ i.wellFormed = false ∧ s.bd = false) ∨
    (q = .cop0Operation ∧ ∃ f, i = .cop0 f) ∨
    ((q = .misalignedData ∨ q = .unmappedAccess) ∧
      ∃ r o base, i = .lw r o base ∨ i = .sw r o base ∨ i = .lwc0 r o base ∨ i = .swc0 r o base) ∨
    (q = .unwrittenRead ∧ ∃ r o base, i = .lw r o base ∨ i = .lwc0 r o base)
end

