-- ==== Sys2Proof/Laws/Encode.lean ====
section
/-! SUPPORT. The layouts of the encoder: the fixed bits and the fields of each. -/

namespace Sys2Proof

/-! ## Layout `R3` -/

theorem layoutR3_mask (rs rt rd : RegNum) (f : BitVec 6) :
    layoutR3 rs rt rd f &&& 0xFC0007FF = f.zeroExtend 32 := by
  apply BitVec.eq_of_getLsbD_eq
  intro i hi
  simp only [layoutR3, BitVec.getLsbD_and, BitVec.getLsbD_append]
  interval_cases i <;> simp

@[simp] theorem layoutR3_rs (rs rt rd : RegNum) (f : BitVec 6) :
    rsField (layoutR3 rs rt rd f) = rs := by
  apply BitVec.eq_of_getLsbD_eq
  intro i hi
  simp only [layoutR3, rsField, field, BitVec.getLsbD_extractLsb', BitVec.getLsbD_append]
  interval_cases i <;> simp

@[simp] theorem layoutR3_rt (rs rt rd : RegNum) (f : BitVec 6) :
    rtField (layoutR3 rs rt rd f) = rt := by
  apply BitVec.eq_of_getLsbD_eq
  intro i hi
  simp only [layoutR3, rtField, field, BitVec.getLsbD_extractLsb', BitVec.getLsbD_append]
  interval_cases i <;> simp

@[simp] theorem layoutR3_rd (rs rt rd : RegNum) (f : BitVec 6) :
    rdField (layoutR3 rs rt rd f) = rd := by
  apply BitVec.eq_of_getLsbD_eq
  intro i hi
  simp only [layoutR3, rdField, field, BitVec.getLsbD_extractLsb', BitVec.getLsbD_append]
  interval_cases i <;> simp

/-! ## Layout `RS` -/

theorem layoutRS_mask (rt rd : RegNum) (sa : BitVec 5) (f : BitVec 6) :
    layoutRS rt rd sa f &&& 0xFFE0003F = f.zeroExtend 32 := by
  apply BitVec.eq_of_getLsbD_eq
  intro i hi
  simp only [layoutRS, BitVec.getLsbD_and, BitVec.getLsbD_append]
  interval_cases i <;> simp

@[simp] theorem layoutRS_rt (rt rd : RegNum) (sa : BitVec 5) (f : BitVec 6) :
    rtField (layoutRS rt rd sa f) = rt := by
  apply BitVec.eq_of_getLsbD_eq
  intro i hi
  simp only [layoutRS, rtField, field, BitVec.getLsbD_extractLsb', BitVec.getLsbD_append]
  interval_cases i <;> simp

@[simp] theorem layoutRS_rd (rt rd : RegNum) (sa : BitVec 5) (f : BitVec 6) :
    rdField (layoutRS rt rd sa f) = rd := by
  apply BitVec.eq_of_getLsbD_eq
  intro i hi
  simp only [layoutRS, rdField, field, BitVec.getLsbD_extractLsb', BitVec.getLsbD_append]
  interval_cases i <;> simp

@[simp] theorem layoutRS_sa (rt rd : RegNum) (sa : BitVec 5) (f : BitVec 6) :
    saField (layoutRS rt rd sa f) = sa := by
  apply BitVec.eq_of_getLsbD_eq
  intro i hi
  simp only [layoutRS, saField, field, BitVec.getLsbD_extractLsb', BitVec.getLsbD_append]
  interval_cases i <;> simp

/-! ## Layout `RM` -/

theorem layoutRM_mask (rs rt : RegNum) (f : BitVec 6) :
    layoutRM rs rt f &&& 0xFC00FFFF = f.zeroExtend 32 := by
  apply BitVec.eq_of_getLsbD_eq
  intro i hi
  simp only [layoutRM, BitVec.getLsbD_and, BitVec.getLsbD_append]
  interval_cases i <;> simp

@[simp] theorem layoutRM_rs (rs rt : RegNum) (f : BitVec 6) :
    rsField (layoutRM rs rt f) = rs := by
  apply BitVec.eq_of_getLsbD_eq
  intro i hi
  simp only [layoutRM, rsField, field, BitVec.getLsbD_extractLsb', BitVec.getLsbD_append]
  interval_cases i <;> simp

@[simp] theorem layoutRM_rt (rs rt : RegNum) (f : BitVec 6) :
    rtField (layoutRM rs rt f) = rt := by
  apply BitVec.eq_of_getLsbD_eq
  intro i hi
  simp only [layoutRM, rtField, field, BitVec.getLsbD_extractLsb', BitVec.getLsbD_append]
  interval_cases i <;> simp

/-! ## Layout `RD` -/

theorem layoutRD_mask (rd : RegNum) (f : BitVec 6) :
    layoutRD rd f &&& 0xFFFF07FF = f.zeroExtend 32 := by
  apply BitVec.eq_of_getLsbD_eq
  intro i hi
  simp only [layoutRD, BitVec.getLsbD_and, BitVec.getLsbD_append]
  interval_cases i <;> simp

@[simp] theorem layoutRD_rd (rd : RegNum) (f : BitVec 6) :
    rdField (layoutRD rd f) = rd := by
  apply BitVec.eq_of_getLsbD_eq
  intro i hi
  simp only [layoutRD, rdField, field, BitVec.getLsbD_extractLsb', BitVec.getLsbD_append]
  interval_cases i <;> simp

/-! ## Layout `R1` -/

theorem layoutR1_mask (rs : RegNum) (f : BitVec 6) :
    layoutR1 rs f &&& 0xFC1FFFFF = f.zeroExtend 32 := by
  apply BitVec.eq_of_getLsbD_eq
  intro i hi
  simp only [layoutR1, BitVec.getLsbD_and, BitVec.getLsbD_append]
  interval_cases i <;> simp

@[simp] theorem layoutR1_rs (rs : RegNum) (f : BitVec 6) :
    rsField (layoutR1 rs f) = rs := by
  apply BitVec.eq_of_getLsbD_eq
  intro i hi
  simp only [layoutR1, rsField, field, BitVec.getLsbD_extractLsb', BitVec.getLsbD_append]
  interval_cases i <;> simp

/-! ## Layout `R2J` -/

theorem layoutR2J_mask (rs rd : RegNum) (f : BitVec 6) :
    layoutR2J rs rd f &&& 0xFC1F07FF = f.zeroExtend 32 := by
  apply BitVec.eq_of_getLsbD_eq
  intro i hi
  simp only [layoutR2J, BitVec.getLsbD_and, BitVec.getLsbD_append]
  interval_cases i <;> simp

@[simp] theorem layoutR2J_rs (rs rd : RegNum) (f : BitVec 6) :
    rsField (layoutR2J rs rd f) = rs := by
  apply BitVec.eq_of_getLsbD_eq
  intro i hi
  simp only [layoutR2J, rsField, field, BitVec.getLsbD_extractLsb', BitVec.getLsbD_append]
  interval_cases i <;> simp

@[simp] theorem layoutR2J_rd (rs rd : RegNum) (f : BitVec 6) :
    rdField (layoutR2J rs rd f) = rd := by
  apply BitVec.eq_of_getLsbD_eq
  intro i hi
  simp only [layoutR2J, rdField, field, BitVec.getLsbD_extractLsb', BitVec.getLsbD_append]
  interval_cases i <;> simp

/-! ## Layout `RC` -/

theorem layoutRC_mask (code : BitVec 20) (f : BitVec 6) :
    layoutRC code f &&& 0xFC00003F = f.zeroExtend 32 := by
  apply BitVec.eq_of_getLsbD_eq
  intro i hi
  simp only [layoutRC, BitVec.getLsbD_and, BitVec.getLsbD_append]
  interval_cases i <;> simp

@[simp] theorem layoutRC_code (code : BitVec 20) (f : BitVec 6) :
    codeField (layoutRC code f) = code := by
  apply BitVec.eq_of_getLsbD_eq
  intro i hi
  simp only [layoutRC, codeField, field, BitVec.getLsbD_extractLsb', BitVec.getLsbD_append]
  interval_cases i <;> simp

/-! ## Layout `I` -/

theorem layoutI_mask (op : BitVec 6) (rs rt : RegNum) (imm : BitVec 16) :
    layoutI op rs rt imm &&& 0xFC000000 = op ++ 0#26 := by
  apply BitVec.eq_of_getLsbD_eq
  intro i hi
  simp only [layoutI, BitVec.getLsbD_and, BitVec.getLsbD_append]
  interval_cases i <;> simp

theorem layoutI_mask_rt (op : BitVec 6) (rs : RegNum) (imm : BitVec 16) :
    layoutI op rs 0 imm &&& 0xFC1F0000 = op ++ 0#26 := by
  apply BitVec.eq_of_getLsbD_eq
  intro i hi
  simp only [layoutI, BitVec.getLsbD_and, BitVec.getLsbD_append]
  interval_cases i <;> simp

theorem layoutI_mask_rs (op : BitVec 6) (rt : RegNum) (imm : BitVec 16) :
    layoutI op 0 rt imm &&& 0xFFE00000 = op ++ 0#26 := by
  apply BitVec.eq_of_getLsbD_eq
  intro i hi
  simp only [layoutI, BitVec.getLsbD_and, BitVec.getLsbD_append]
  interval_cases i <;> simp

@[simp] theorem layoutI_rs (op : BitVec 6) (rs rt : RegNum) (imm : BitVec 16) :
    rsField (layoutI op rs rt imm) = rs := by
  apply BitVec.eq_of_getLsbD_eq
  intro i hi
  simp only [layoutI, rsField, field, BitVec.getLsbD_extractLsb', BitVec.getLsbD_append]
  interval_cases i <;> simp

@[simp] theorem layoutI_rt (op : BitVec 6) (rs rt : RegNum) (imm : BitVec 16) :
    rtField (layoutI op rs rt imm) = rt := by
  apply BitVec.eq_of_getLsbD_eq
  intro i hi
  simp only [layoutI, rtField, field, BitVec.getLsbD_extractLsb', BitVec.getLsbD_append]
  interval_cases i <;> simp

@[simp] theorem layoutI_imm (op : BitVec 6) (rs rt : RegNum) (imm : BitVec 16) :
    immField (layoutI op rs rt imm) = imm := by
  apply BitVec.eq_of_getLsbD_eq
  intro i hi
  simp only [layoutI, immField, field, BitVec.getLsbD_extractLsb', BitVec.getLsbD_append]
  interval_cases i <;> simp

/-! ## Layout `RI` -/

theorem layoutRI_mask (rs : RegNum) (sel : BitVec 5) (imm : BitVec 16) :
    layoutRI rs sel imm &&& 0xFC1F0000 = 0b000001#6 ++ 0#5 ++ sel ++ 0#16 := by
  apply BitVec.eq_of_getLsbD_eq
  intro i hi
  simp only [layoutRI, BitVec.getLsbD_and, BitVec.getLsbD_append]
  interval_cases i <;> simp

@[simp] theorem layoutRI_rs (rs : RegNum) (sel : BitVec 5) (imm : BitVec 16) :
    rsField (layoutRI rs sel imm) = rs := by
  apply BitVec.eq_of_getLsbD_eq
  intro i hi
  simp only [layoutRI, rsField, field, BitVec.getLsbD_extractLsb', BitVec.getLsbD_append]
  interval_cases i <;> simp

@[simp] theorem layoutRI_imm (rs : RegNum) (sel : BitVec 5) (imm : BitVec 16) :
    immField (layoutRI rs sel imm) = imm := by
  apply BitVec.eq_of_getLsbD_eq
  intro i hi
  simp only [layoutRI, immField, field, BitVec.getLsbD_extractLsb', BitVec.getLsbD_append]
  interval_cases i <;> simp

/-! ## Layout `J` -/

theorem layoutJ_mask (op : BitVec 6) (x : BitVec 26) :
    layoutJ op x &&& 0xFC000000 = op ++ 0#26 := by
  apply BitVec.eq_of_getLsbD_eq
  intro i hi
  simp only [layoutJ, BitVec.getLsbD_and, BitVec.getLsbD_append]
  interval_cases i <;> simp

@[simp] theorem layoutJ_index (op : BitVec 6) (x : BitVec 26) :
    indexField (layoutJ op x) = x := by
  apply BitVec.eq_of_getLsbD_eq
  intro i hi
  simp only [layoutJ, indexField, field, BitVec.getLsbD_extractLsb', BitVec.getLsbD_append]
  interval_cases i <;> simp

/-! ## Layout `CM` -/

theorem layoutCM_mask (sel rt cs : BitVec 5) :
    layoutCM sel rt cs &&& 0xFFE007FF = 0b010000#6 ++ sel ++ 0#21 := by
  apply BitVec.eq_of_getLsbD_eq
  intro i hi
  simp only [layoutCM, BitVec.getLsbD_and, BitVec.getLsbD_append]
  interval_cases i <;> simp

@[simp] theorem layoutCM_rt (sel rt cs : BitVec 5) :
    rtField (layoutCM sel rt cs) = rt := by
  apply BitVec.eq_of_getLsbD_eq
  intro i hi
  simp only [layoutCM, rtField, field, BitVec.getLsbD_extractLsb', BitVec.getLsbD_append]
  interval_cases i <;> simp

@[simp] theorem layoutCM_cs (sel rt cs : BitVec 5) :
    rdField (layoutCM sel rt cs) = cs := by
  apply BitVec.eq_of_getLsbD_eq
  intro i hi
  simp only [layoutCM, rdField, field, BitVec.getLsbD_extractLsb', BitVec.getLsbD_append]
  interval_cases i <;> simp

/-! ## Layout `CF` -/

theorem layoutCF_mask (x : BitVec 21) :
    layoutCF x &&& 0xFFE00000 = 0b010000#6 ++ 0b00001#5 ++ 0#21 := by
  apply BitVec.eq_of_getLsbD_eq
  intro i hi
  simp only [layoutCF, BitVec.getLsbD_and, BitVec.getLsbD_append]
  interval_cases i <;> simp

@[simp] theorem layoutCF_copFun (x : BitVec 21) :
    copFunField (layoutCF x) = x := by
  apply BitVec.eq_of_getLsbD_eq
  intro i hi
  simp only [layoutCF, copFunField, field, BitVec.getLsbD_extractLsb', BitVec.getLsbD_append]
  interval_cases i <;> simp

end Sys2Proof
end

