-- ==== Sys2Proof/Laws/Memory.lean ====
section
/-! SUPPORT. Memory and the set of stored words: what is read after a write of one byte, the bytes of a word, and
that every operation keeps the canonical form. -/

namespace Sys2Proof.Machine

/-! ## One byte -/

/-- Reading after a write of one byte: the byte written at its address, what was there elsewhere. -/
@[simp] theorem Memory.get_put (m : Memory) (x y : Nat) (v : Byte) :
    (m.put x v).get y = if y = x then some v else m.get y := by
  induction m with
  | nil => simp [Memory.put, Memory.get]
  | cons c m ih =>
    obtain ⟨a, b⟩ := c
    simp only [Memory.put]
    split
    · simp [Memory.get]
    · split
      · subst x; by_cases h : y = a <;> simp [Memory.get, h]
      · rename_i hx
        simp only [Memory.get, ih]
        by_cases h : y = a
        · have : y ≠ x := fun e => hx (e ▸ h)
          simp [h, Ne.symm hx]
        · simp [h]

/-- An address of the memory after a write is one of the memory before, or the one written. -/
theorem Memory.mem_put (m : Memory) (x : Nat) (v : Byte) {c : Host.Cell} (h : c ∈ m.put x v) :
    c = (x, v) ∨ c ∈ m := by
  induction m with
  | nil => simpa [Memory.put] using h
  | cons d m ih =>
    obtain ⟨a, b⟩ := d
    simp only [Memory.put] at h
    split at h
    · simpa using h
    · split at h
      · rcases List.mem_cons.1 h with h | h
        · exact .inl h
        · exact .inr (List.mem_cons_of_mem _ h)
      · rcases List.mem_cons.1 h with h | h
        · exact .inr (h ▸ List.mem_cons_self)
        · exact (ih h).imp id (List.mem_cons_of_mem _)

/-- A write of one byte keeps the canonical form. -/
theorem Memory.put_wf {m : Memory} (h : m.wf) (x : Nat) (v : Byte) : (m.put x v).wf := by
  induction m with
  | nil => simp [Memory.put, Memory.wf]
  | cons c m ih =>
    obtain ⟨a, b⟩ := c
    simp only [Memory.wf, List.map_cons, List.pairwise_cons] at h
    simp only [Memory.put]
    split
    · rename_i hx
      simp only [Memory.wf, List.map_cons, List.pairwise_cons, List.mem_cons]
      refine ⟨?_, h⟩
      rintro y (rfl | hy)
      · exact hx
      · exact Nat.lt_trans hx (h.1 y hy)
    · split
      · rename_i _ hx
        subst hx
        simpa only [Memory.wf, List.map_cons, List.pairwise_cons] using h
      · rename_i h1 h2
        simp only [Memory.wf, List.map_cons, List.pairwise_cons]
        refine ⟨?_, ih h.2⟩
        intro y hy
        obtain ⟨c, hc, rfl⟩ := List.mem_map.1 hy
        rcases Memory.mem_put m x v hc with rfl | hc
        · show a < x; omega
        · exact h.1 _ (List.mem_map.2 ⟨c, hc, rfl⟩)

/-- A write inside the address space keeps the memory inside it. -/
theorem Memory.put_inSpace {m : Memory} (h : m.inSpace) {x : Nat} (hx : x < 2 ^ 32) (v : Byte) :
    (m.put x v).inSpace := by
  intro c hc
  rcases Memory.mem_put m x v hc with rfl | hc
  · exact hx
  · exact h c hc

/-- A write never takes a value away. -/
theorem Memory.put_isSome {m : Memory} {y : Nat} (h : (m.get y).isSome) (x : Nat) (v : Byte) :
    ((m.put x v).get y).isSome := by
  rw [Memory.get_put]; split <;> simp_all

/-! ## A word -/

/-- The bytes of a word, put together again, are the word. -/
@[simp] theorem joinBytes_byteAt (e : Endian) (w : Word) :
    joinBytes e (byteAt e w 0) (byteAt e w 1) (byteAt e w 2) (byteAt e w 3) = w := by
  cases e <;>
  · simp only [joinBytes, byteAt, field]
    apply BitVec.eq_of_getLsbD_eq
    intro i hi
    simp only [BitVec.getLsbD_append, BitVec.getLsbD_extractLsb']
    interval_cases i <;> simp

/-- The bytes of four bytes put together as a word are those bytes. -/
theorem byteAt_joinBytes (e : Endian) (b0 b1 b2 b3 : Byte) :
    byteAt e (joinBytes e b0 b1 b2 b3) 0 = b0 ∧ byteAt e (joinBytes e b0 b1 b2 b3) 1 = b1 ∧
    byteAt e (joinBytes e b0 b1 b2 b3) 2 = b2 ∧ byteAt e (joinBytes e b0 b1 b2 b3) 3 = b3 := by
  cases e <;>
  · simp only [joinBytes, byteAt, field]
    refine ⟨?_, ?_, ?_, ?_⟩ <;>
    · apply BitVec.eq_of_getLsbD_eq
      intro i hi
      simp only [BitVec.getLsbD_append, BitVec.getLsbD_extractLsb']
      interval_cases i <;> simp

/-- The byte at `y` after a write of a word. -/
theorem Memory.get_writeWord (m : Memory) (e : Endian) (a v : Word) (y : Nat) :
    (m.writeWord e a v).get y =
      if y = a.toNat + 3 then some (byteAt e v 3) else if y = a.toNat + 2 then some (byteAt e v 2)
      else if y = a.toNat + 1 then some (byteAt e v 1) else if y = a.toNat then some (byteAt e v 0)
      else m.get y := by
  simp only [Memory.writeWord, Memory.get_put]

/-- A write of a word leaves every byte outside its four alone. -/
theorem Memory.get_writeWord_outside (m : Memory) (e : Endian) (a v : Word) {y : Nat}
    (h : y < a.toNat ∨ a.toNat + 4 ≤ y) : (m.writeWord e a v).get y = m.get y := by
  rw [Memory.get_writeWord]
  repeat rw [if_neg (by omega)]

/-- A write of a word keeps the canonical form. -/
theorem Memory.writeWord_wf {m : Memory} (h : m.wf) (e : Endian) (a v : Word) : (m.writeWord e a v).wf :=
  Memory.put_wf (Memory.put_wf (Memory.put_wf (Memory.put_wf h _ _) _ _) _ _) _ _

/-- An aligned address leaves room for its word. -/
theorem aligned_iff (a : Word) : aligned a = true ↔ a.toNat % 4 = 0 := by
  simp [aligned, field, BitVec.toNat_eq]

theorem toNat_lt_of_aligned {a : Word} (h : aligned a = true) : a.toNat + 3 < 2 ^ 32 := by
  have := (aligned_iff a).1 h; have := a.isLt; omega

theorem alignDown_toNat (a : Word) : (alignDown a).toNat = a.toNat / 4 * 4 := by
  have := a.isLt
  simp only [alignDown, field, BitVec.toNat_append, BitVec.extractLsb'_toNat]
  simp [Nat.shiftLeft_eq, Nat.shiftRight_eq_div_pow]
  omega

theorem aligned_alignDown (a : Word) : aligned (alignDown a) = true := by
  rw [aligned_iff, alignDown_toNat]; omega

/-- A write of a word at an aligned address keeps the memory inside the address space. -/
theorem Memory.writeWord_inSpace {m : Memory} (h : m.inSpace) (e : Endian) {a : Word} (ha : aligned a = true)
    (v : Word) : (m.writeWord e a v).inSpace := by
  have := toNat_lt_of_aligned ha
  exact Memory.put_inSpace (Memory.put_inSpace (Memory.put_inSpace (Memory.put_inSpace h (by omega) _)
    (by omega) _) (by omega) _) (by omega) _

/-! ## The set of stored words -/

@[simp] theorem AddrSet.mem_insert (t : AddrSet) (x y : Nat) : y ∈ t.insert x ↔ y = x ∨ y ∈ t := by
  induction t with
  | nil => simp [AddrSet.insert]
  | cons a t ih =>
    simp only [AddrSet.insert]
    split
    · simp
    · split
      · subst x; simp
      · simp only [List.mem_cons, ih]; tauto

@[simp] theorem AddrSet.has_iff (t : AddrSet) (x : Nat) : t.has x = true ↔ x ∈ t := by
  simp [AddrSet.has]

theorem AddrSet.insert_wf {t : AddrSet} (h : t.wf) (x : Nat) : (t.insert x).wf := by
  induction t with
  | nil => simp [AddrSet.insert, AddrSet.wf]
  | cons a t ih =>
    simp only [AddrSet.wf, List.pairwise_cons] at h
    simp only [AddrSet.insert]
    split
    · rename_i hx
      simp only [AddrSet.wf, List.pairwise_cons, List.mem_cons]
      refine ⟨?_, h⟩
      rintro y (rfl | hy)
      · exact hx
      · exact Nat.lt_trans hx (h.1 y hy)
    · split
      · simpa only [AddrSet.wf, List.pairwise_cons] using h
      · simp only [AddrSet.wf, List.pairwise_cons]
        refine ⟨?_, ih h.2⟩
        intro y hy
        rcases (AddrSet.mem_insert t x y).1 hy with rfl | hy
        · omega
        · exact h.1 y hy

theorem AddrSet.remove_wf {t : AddrSet} (h : t.wf) (x : Nat) : (t.remove x).wf := List.Pairwise.filter _ h

@[simp] theorem AddrSet.mem_remove (t : AddrSet) (x y : Nat) : y ∈ t.remove x ↔ y ∈ t ∧ y ≠ x := by
  simp [AddrSet.remove]

end Sys2Proof.Machine
end

