-- ==== Sys2Proof/Laws/State.lean ====
section
/-! SUPPORT. One lemma per field of `State` for every update of Machine/Ops.lean. -/

namespace Sys2Proof.Machine

/-! ## `State.writeGpr` -/

@[simp] theorem State.writeGpr_cfg (s : State) (r : RegNum) (v : Word) : (s.writeGpr r v).cfg = s.cfg := by
  unfold State.writeGpr; split <;> rfl

@[simp] theorem State.writeGpr_hi (s : State) (r : RegNum) (v : Word) : (s.writeGpr r v).hi = s.hi := by
  unfold State.writeGpr; split <;> rfl

@[simp] theorem State.writeGpr_lo (s : State) (r : RegNum) (v : Word) : (s.writeGpr r v).lo = s.lo := by
  unfold State.writeGpr; split <;> rfl

@[simp] theorem State.writeGpr_c0 (s : State) (r : RegNum) (v : Word) : (s.writeGpr r v).c0 = s.c0 := by
  unfold State.writeGpr; split <;> rfl

@[simp] theorem State.writeGpr_pc (s : State) (r : RegNum) (v : Word) : (s.writeGpr r v).pc = s.pc := by
  unfold State.writeGpr; split <;> rfl

@[simp] theorem State.writeGpr_npc (s : State) (r : RegNum) (v : Word) : (s.writeGpr r v).npc = s.npc := by
  unfold State.writeGpr; split <;> rfl

@[simp] theorem State.writeGpr_bd (s : State) (r : RegNum) (v : Word) : (s.writeGpr r v).bd = s.bd := by
  unfold State.writeGpr; split <;> rfl

@[simp] theorem State.writeGpr_mem (s : State) (r : RegNum) (v : Word) : (s.writeGpr r v).mem = s.mem := by
  unfold State.writeGpr; split <;> rfl

@[simp] theorem State.writeGpr_stored (s : State) (r : RegNum) (v : Word) : (s.writeGpr r v).stored = s.stored := by
  unfold State.writeGpr; split <;> rfl

@[simp] theorem State.writeGpr_trapRec (s : State) (r : RegNum) (v : Word) :
    (s.writeGpr r v).trapRec = s.trapRec := by
  unfold State.writeGpr; split <;> rfl

@[simp] theorem State.writeGpr_interrupts (s : State) (r : RegNum) (v : Word) :
    (s.writeGpr r v).interrupts = s.interrupts := by
  unfold State.writeGpr; split <;> rfl

/-! ## `State.writeGprs` -/

@[simp] theorem State.writeGprs_cfg (s : State) (f : RegFile) : (s.writeGprs f).cfg = s.cfg := rfl

@[simp] theorem State.writeGprs_gpr (s : State) (f : RegFile) : (s.writeGprs f).gpr = f.set 0 0 := rfl

@[simp] theorem State.writeGprs_hi (s : State) (f : RegFile) : (s.writeGprs f).hi = s.hi := rfl

@[simp] theorem State.writeGprs_lo (s : State) (f : RegFile) : (s.writeGprs f).lo = s.lo := rfl

@[simp] theorem State.writeGprs_c0 (s : State) (f : RegFile) : (s.writeGprs f).c0 = s.c0 := rfl

@[simp] theorem State.writeGprs_pc (s : State) (f : RegFile) : (s.writeGprs f).pc = s.pc := rfl

@[simp] theorem State.writeGprs_npc (s : State) (f : RegFile) : (s.writeGprs f).npc = s.npc := rfl

@[simp] theorem State.writeGprs_bd (s : State) (f : RegFile) : (s.writeGprs f).bd = s.bd := rfl

@[simp] theorem State.writeGprs_mem (s : State) (f : RegFile) : (s.writeGprs f).mem = s.mem := rfl

@[simp] theorem State.writeGprs_stored (s : State) (f : RegFile) : (s.writeGprs f).stored = s.stored := rfl

@[simp] theorem State.writeGprs_trapRec (s : State) (f : RegFile) : (s.writeGprs f).trapRec = s.trapRec := rfl

@[simp] theorem State.writeGprs_interrupts (s : State) (f : RegFile) :
    (s.writeGprs f).interrupts = s.interrupts := rfl

/-! ## `State.writeC0` -/

@[simp] theorem State.writeC0_cfg (s : State) (r : RegNum) (v : Word) : (s.writeC0 r v).cfg = s.cfg := by
  unfold State.writeC0; split <;> rfl

@[simp] theorem State.writeC0_gpr (s : State) (r : RegNum) (v : Word) : (s.writeC0 r v).gpr = s.gpr := by
  unfold State.writeC0; split <;> rfl

@[simp] theorem State.writeC0_hi (s : State) (r : RegNum) (v : Word) : (s.writeC0 r v).hi = s.hi := by
  unfold State.writeC0; split <;> rfl

@[simp] theorem State.writeC0_lo (s : State) (r : RegNum) (v : Word) : (s.writeC0 r v).lo = s.lo := by
  unfold State.writeC0; split <;> rfl

@[simp] theorem State.writeC0_pc (s : State) (r : RegNum) (v : Word) : (s.writeC0 r v).pc = s.pc := by
  unfold State.writeC0; split <;> rfl

@[simp] theorem State.writeC0_npc (s : State) (r : RegNum) (v : Word) : (s.writeC0 r v).npc = s.npc := by
  unfold State.writeC0; split <;> rfl

@[simp] theorem State.writeC0_bd (s : State) (r : RegNum) (v : Word) : (s.writeC0 r v).bd = s.bd := by
  unfold State.writeC0; split <;> rfl

@[simp] theorem State.writeC0_mem (s : State) (r : RegNum) (v : Word) : (s.writeC0 r v).mem = s.mem := by
  unfold State.writeC0; split <;> rfl

@[simp] theorem State.writeC0_stored (s : State) (r : RegNum) (v : Word) : (s.writeC0 r v).stored = s.stored := by
  unfold State.writeC0; split <;> rfl

@[simp] theorem State.writeC0_trapRec (s : State) (r : RegNum) (v : Word) : (s.writeC0 r v).trapRec = s.trapRec := by
  unfold State.writeC0; split <;> rfl

@[simp] theorem State.writeC0_interrupts (s : State) (r : RegNum) (v : Word) :
    (s.writeC0 r v).interrupts = s.interrupts := by
  unfold State.writeC0; split <;> rfl

/-! ## `State.writeWord` -/

@[simp] theorem State.writeWord_cfg (s : State) (a v : Word) : (s.writeWord a v).cfg = s.cfg := rfl

@[simp] theorem State.writeWord_gpr (s : State) (a v : Word) : (s.writeWord a v).gpr = s.gpr := rfl

@[simp] theorem State.writeWord_hi (s : State) (a v : Word) : (s.writeWord a v).hi = s.hi := rfl

@[simp] theorem State.writeWord_lo (s : State) (a v : Word) : (s.writeWord a v).lo = s.lo := rfl

@[simp] theorem State.writeWord_c0 (s : State) (a v : Word) : (s.writeWord a v).c0 = s.c0 := rfl

@[simp] theorem State.writeWord_pc (s : State) (a v : Word) : (s.writeWord a v).pc = s.pc := rfl

@[simp] theorem State.writeWord_npc (s : State) (a v : Word) : (s.writeWord a v).npc = s.npc := rfl

@[simp] theorem State.writeWord_bd (s : State) (a v : Word) : (s.writeWord a v).bd = s.bd := rfl

@[simp] theorem State.writeWord_mem (s : State) (a v : Word) :
    (s.writeWord a v).mem = s.mem.writeWord s.cfg.endian a v := rfl

@[simp] theorem State.writeWord_trapRec (s : State) (a v : Word) : (s.writeWord a v).trapRec = s.trapRec := rfl

@[simp] theorem State.writeWord_interrupts (s : State) (a v : Word) :
    (s.writeWord a v).interrupts = s.interrupts := rfl

/-! ## `State.advance` -/

@[simp] theorem State.advance_cfg (s : State) : s.advance.cfg = s.cfg := rfl

@[simp] theorem State.advance_gpr (s : State) : s.advance.gpr = s.gpr := rfl

@[simp] theorem State.advance_hi (s : State) : s.advance.hi = s.hi := rfl

@[simp] theorem State.advance_lo (s : State) : s.advance.lo = s.lo := rfl

@[simp] theorem State.advance_c0 (s : State) : s.advance.c0 = s.c0 := rfl

@[simp] theorem State.advance_pc (s : State) : s.advance.pc = s.npc := rfl

@[simp] theorem State.advance_npc (s : State) : s.advance.npc = s.npc + 4 := rfl

@[simp] theorem State.advance_bd (s : State) : s.advance.bd = false := rfl

@[simp] theorem State.advance_mem (s : State) : s.advance.mem = s.mem := rfl

@[simp] theorem State.advance_stored (s : State) : s.advance.stored = s.stored := rfl

@[simp] theorem State.advance_trapRec (s : State) : s.advance.trapRec = s.trapRec := rfl

@[simp] theorem State.advance_interrupts (s : State) : s.advance.interrupts = s.interrupts := rfl

/-! ## `State.fallThrough` -/

@[simp] theorem State.fallThrough_cfg (s : State) : s.fallThrough.cfg = s.cfg := rfl

@[simp] theorem State.fallThrough_gpr (s : State) : s.fallThrough.gpr = s.gpr := rfl

@[simp] theorem State.fallThrough_hi (s : State) : s.fallThrough.hi = s.hi := rfl

@[simp] theorem State.fallThrough_lo (s : State) : s.fallThrough.lo = s.lo := rfl

@[simp] theorem State.fallThrough_c0 (s : State) : s.fallThrough.c0 = s.c0 := rfl

@[simp] theorem State.fallThrough_pc (s : State) : s.fallThrough.pc = s.npc := rfl

@[simp] theorem State.fallThrough_npc (s : State) : s.fallThrough.npc = s.npc + 4 := rfl

@[simp] theorem State.fallThrough_bd (s : State) : s.fallThrough.bd = true := rfl

@[simp] theorem State.fallThrough_mem (s : State) : s.fallThrough.mem = s.mem := rfl

@[simp] theorem State.fallThrough_stored (s : State) : s.fallThrough.stored = s.stored := rfl

@[simp] theorem State.fallThrough_trapRec (s : State) : s.fallThrough.trapRec = s.trapRec := rfl

@[simp] theorem State.fallThrough_interrupts (s : State) : s.fallThrough.interrupts = s.interrupts := rfl

/-! ## `State.delayedJump` -/

@[simp] theorem State.delayedJump_cfg (s : State) (target : Word) : (s.delayedJump target).cfg = s.cfg := rfl

@[simp] theorem State.delayedJump_gpr (s : State) (target : Word) : (s.delayedJump target).gpr = s.gpr := rfl

@[simp] theorem State.delayedJump_hi (s : State) (target : Word) : (s.delayedJump target).hi = s.hi := rfl

@[simp] theorem State.delayedJump_lo (s : State) (target : Word) : (s.delayedJump target).lo = s.lo := rfl

@[simp] theorem State.delayedJump_c0 (s : State) (target : Word) : (s.delayedJump target).c0 = s.c0 := rfl

@[simp] theorem State.delayedJump_pc (s : State) (target : Word) : (s.delayedJump target).pc = s.npc := rfl

@[simp] theorem State.delayedJump_npc (s : State) (target : Word) : (s.delayedJump target).npc = target := rfl

@[simp] theorem State.delayedJump_bd (s : State) (target : Word) : (s.delayedJump target).bd = true := rfl

@[simp] theorem State.delayedJump_mem (s : State) (target : Word) : (s.delayedJump target).mem = s.mem := rfl

@[simp] theorem State.delayedJump_stored (s : State) (target : Word) : (s.delayedJump target).stored = s.stored := rfl

@[simp] theorem State.delayedJump_trapRec (s : State) (target : Word) :
    (s.delayedJump target).trapRec = s.trapRec := rfl

@[simp] theorem State.delayedJump_interrupts (s : State) (target : Word) :
    (s.delayedJump target).interrupts = s.interrupts := rfl

/-! ## `State.branchIf` -/

@[simp] theorem State.branchIf_cfg (s : State) (c : Bool) (target : Word) : (s.branchIf c target).cfg = s.cfg := by
  cases c <;> rfl

@[simp] theorem State.branchIf_gpr (s : State) (c : Bool) (target : Word) : (s.branchIf c target).gpr = s.gpr := by
  cases c <;> rfl

@[simp] theorem State.branchIf_hi (s : State) (c : Bool) (target : Word) : (s.branchIf c target).hi = s.hi := by
  cases c <;> rfl

@[simp] theorem State.branchIf_lo (s : State) (c : Bool) (target : Word) : (s.branchIf c target).lo = s.lo := by
  cases c <;> rfl

@[simp] theorem State.branchIf_c0 (s : State) (c : Bool) (target : Word) : (s.branchIf c target).c0 = s.c0 := by
  cases c <;> rfl

@[simp] theorem State.branchIf_pc (s : State) (c : Bool) (target : Word) : (s.branchIf c target).pc = s.npc := by
  cases c <;> rfl

@[simp] theorem State.branchIf_npc (s : State) (c : Bool) (target : Word) :
    (s.branchIf c target).npc = if c then target else s.npc + 4 := by
  cases c <;> rfl

@[simp] theorem State.branchIf_bd (s : State) (c : Bool) (target : Word) : (s.branchIf c target).bd = true := by
  cases c <;> rfl

@[simp] theorem State.branchIf_mem (s : State) (c : Bool) (target : Word) : (s.branchIf c target).mem = s.mem := by
  cases c <;> rfl

@[simp] theorem State.branchIf_stored (s : State) (c : Bool) (target : Word) :
    (s.branchIf c target).stored = s.stored := by
  cases c <;> rfl

@[simp] theorem State.branchIf_trapRec (s : State) (c : Bool) (target : Word) :
    (s.branchIf c target).trapRec = s.trapRec := by
  cases c <;> rfl

@[simp] theorem State.branchIf_interrupts (s : State) (c : Bool) (target : Word) :
    (s.branchIf c target).interrupts = s.interrupts := by
  cases c <;> rfl

/-! ## `State.enterHandler` -/

@[simp] theorem State.enterHandler_cfg (s : State) (a : Word) (x : ExcRecord) :
    (s.enterHandler a x).cfg = s.cfg := rfl

@[simp] theorem State.enterHandler_gpr (s : State) (a : Word) (x : ExcRecord) :
    (s.enterHandler a x).gpr = s.gpr := rfl

@[simp] theorem State.enterHandler_hi (s : State) (a : Word) (x : ExcRecord) : (s.enterHandler a x).hi = s.hi := rfl

@[simp] theorem State.enterHandler_lo (s : State) (a : Word) (x : ExcRecord) : (s.enterHandler a x).lo = s.lo := rfl

@[simp] theorem State.enterHandler_c0 (s : State) (a : Word) (x : ExcRecord) :
    (s.enterHandler a x).c0 = Config.trapEntryC0 s x := rfl

@[simp] theorem State.enterHandler_pc (s : State) (a : Word) (x : ExcRecord) : (s.enterHandler a x).pc = a := rfl

@[simp] theorem State.enterHandler_npc (s : State) (a : Word) (x : ExcRecord) :
    (s.enterHandler a x).npc = a + 4 := rfl

@[simp] theorem State.enterHandler_bd (s : State) (a : Word) (x : ExcRecord) : (s.enterHandler a x).bd = false := rfl

@[simp] theorem State.enterHandler_mem (s : State) (a : Word) (x : ExcRecord) :
    (s.enterHandler a x).mem = s.mem := rfl

@[simp] theorem State.enterHandler_stored (s : State) (a : Word) (x : ExcRecord) :
    (s.enterHandler a x).stored = s.stored := rfl

@[simp] theorem State.enterHandler_trapRec (s : State) (a : Word) (x : ExcRecord) :
    (s.enterHandler a x).trapRec = some x := rfl

@[simp] theorem State.enterHandler_interrupts (s : State) (a : Word) (x : ExcRecord) :
    (s.enterHandler a x).interrupts = s.interrupts := rfl

/-! ## `State.writeWords` -/

@[simp] theorem State.writeWords_cfg (s : State) (ws : List (Word × Word)) : (s.writeWords ws).cfg = s.cfg := by
  induction ws generalizing s with
  | nil => rfl
  | cons p ws ih => simp only [State.writeWords, ih]; split <;> rfl

@[simp] theorem State.writeWords_gpr (s : State) (ws : List (Word × Word)) : (s.writeWords ws).gpr = s.gpr := by
  induction ws generalizing s with
  | nil => rfl
  | cons p ws ih => simp only [State.writeWords, ih]; split <;> rfl

@[simp] theorem State.writeWords_hi (s : State) (ws : List (Word × Word)) : (s.writeWords ws).hi = s.hi := by
  induction ws generalizing s with
  | nil => rfl
  | cons p ws ih => simp only [State.writeWords, ih]; split <;> rfl

@[simp] theorem State.writeWords_lo (s : State) (ws : List (Word × Word)) : (s.writeWords ws).lo = s.lo := by
  induction ws generalizing s with
  | nil => rfl
  | cons p ws ih => simp only [State.writeWords, ih]; split <;> rfl

@[simp] theorem State.writeWords_c0 (s : State) (ws : List (Word × Word)) : (s.writeWords ws).c0 = s.c0 := by
  induction ws generalizing s with
  | nil => rfl
  | cons p ws ih => simp only [State.writeWords, ih]; split <;> rfl

@[simp] theorem State.writeWords_pc (s : State) (ws : List (Word × Word)) : (s.writeWords ws).pc = s.pc := by
  induction ws generalizing s with
  | nil => rfl
  | cons p ws ih => simp only [State.writeWords, ih]; split <;> rfl

@[simp] theorem State.writeWords_npc (s : State) (ws : List (Word × Word)) : (s.writeWords ws).npc = s.npc := by
  induction ws generalizing s with
  | nil => rfl
  | cons p ws ih => simp only [State.writeWords, ih]; split <;> rfl

@[simp] theorem State.writeWords_bd (s : State) (ws : List (Word × Word)) : (s.writeWords ws).bd = s.bd := by
  induction ws generalizing s with
  | nil => rfl
  | cons p ws ih => simp only [State.writeWords, ih]; split <;> rfl

@[simp] theorem State.writeWords_trapRec (s : State) (ws : List (Word × Word)) : (s.writeWords ws).trapRec = s.trapRec := by
  induction ws generalizing s with
  | nil => rfl
  | cons p ws ih => simp only [State.writeWords, ih]; split <;> rfl

@[simp] theorem State.writeWords_interrupts (s : State) (ws : List (Word × Word)) : (s.writeWords ws).interrupts = s.interrupts := by
  induction ws generalizing s with
  | nil => rfl
  | cons p ws ih => simp only [State.writeWords, ih]; split <;> rfl

/-! ## `State.cop0Control` -/

@[simp] theorem State.cop0Control_cfg (s : State) (c : Cop0Control) : (s.cop0Control c).cfg = s.cfg := by
  cases c <;> rfl

@[simp] theorem State.cop0Control_gpr (s : State) (c : Cop0Control) : (s.cop0Control c).gpr = s.gpr := by
  cases c <;> rfl

@[simp] theorem State.cop0Control_hi (s : State) (c : Cop0Control) : (s.cop0Control c).hi = s.hi := by
  cases c <;> rfl

@[simp] theorem State.cop0Control_lo (s : State) (c : Cop0Control) : (s.cop0Control c).lo = s.lo := by
  cases c <;> rfl

@[simp] theorem State.cop0Control_c0 (s : State) (c : Cop0Control) : (s.cop0Control c).c0 = s.c0 := by
  cases c <;> rfl

@[simp] theorem State.cop0Control_mem (s : State) (c : Cop0Control) : (s.cop0Control c).mem = s.mem := by
  cases c <;> rfl

@[simp] theorem State.cop0Control_stored (s : State) (c : Cop0Control) : (s.cop0Control c).stored = s.stored := by
  cases c <;> rfl

@[simp] theorem State.cop0Control_trapRec (s : State) (c : Cop0Control) : (s.cop0Control c).trapRec = s.trapRec := by
  cases c <;> rfl

@[simp] theorem State.cop0Control_interrupts (s : State) (c : Cop0Control) : (s.cop0Control c).interrupts = s.interrupts := by
  cases c <;> rfl

theorem State.cop0Control_pc (s : State) (c : Cop0Control) : (s.cop0Control c).pc =
    match c with
    | .goOn => s.npc
    | .goTo a | .goToSlot a _ => registerTarget s.cfg a := by
  cases c <;> rfl

theorem State.cop0Control_npc (s : State) (c : Cop0Control) : (s.cop0Control c).npc =
    match c with
    | .goOn => s.npc + 4
    | .goTo a => registerTarget s.cfg a + 4
    | .goToSlot _ target => registerTarget s.cfg target := by
  cases c <;> rfl

theorem State.cop0Control_bd (s : State) (c : Cop0Control) : (s.cop0Control c).bd =
    match c with
    | .goOn | .goTo _ => false
    | .goToSlot _ _ => true := by
  cases c <;> rfl

/-! ## `State.applyCop0` -/

@[simp] theorem State.applyCop0_cfg (s : State) (e : Cop0Effect) : (s.applyCop0 e).cfg = s.cfg := by
  simp [State.applyCop0]

@[simp] theorem State.applyCop0_gpr (s : State) (e : Cop0Effect) : (s.applyCop0 e).gpr = e.gpr.set 0 0 := by
  simp [State.applyCop0]

@[simp] theorem State.applyCop0_hi (s : State) (e : Cop0Effect) : (s.applyCop0 e).hi = e.hi := by
  simp [State.applyCop0]

@[simp] theorem State.applyCop0_lo (s : State) (e : Cop0Effect) : (s.applyCop0 e).lo = e.lo := by
  simp [State.applyCop0]

@[simp] theorem State.applyCop0_c0 (s : State) (e : Cop0Effect) : (s.applyCop0 e).c0 = e.c0 := by
  simp [State.applyCop0]

@[simp] theorem State.applyCop0_mem (s : State) (e : Cop0Effect) : (s.applyCop0 e).mem = (s.writeWords e.writes).mem := by
  simp [State.applyCop0]

@[simp] theorem State.applyCop0_stored (s : State) (e : Cop0Effect) : (s.applyCop0 e).stored = (s.writeWords e.writes).stored := by
  simp [State.applyCop0]

@[simp] theorem State.applyCop0_trapRec (s : State) (e : Cop0Effect) : (s.applyCop0 e).trapRec = s.trapRec := by
  simp [State.applyCop0]

@[simp] theorem State.applyCop0_interrupts (s : State) (e : Cop0Effect) : (s.applyCop0 e).interrupts = s.interrupts := by
  simp [State.applyCop0]

/-! ## `State.passBoundary` -/

@[simp] theorem State.passBoundary_cfg (s : State) : s.passBoundary.cfg = s.cfg := rfl

@[simp] theorem State.passBoundary_gpr (s : State) : s.passBoundary.gpr = s.gpr := rfl

@[simp] theorem State.passBoundary_hi (s : State) : s.passBoundary.hi = s.hi := rfl

@[simp] theorem State.passBoundary_lo (s : State) : s.passBoundary.lo = s.lo := rfl

@[simp] theorem State.passBoundary_c0 (s : State) : s.passBoundary.c0 = s.c0 := rfl

@[simp] theorem State.passBoundary_pc (s : State) : s.passBoundary.pc = s.pc := rfl

@[simp] theorem State.passBoundary_npc (s : State) : s.passBoundary.npc = s.npc := rfl

@[simp] theorem State.passBoundary_bd (s : State) : s.passBoundary.bd = s.bd := rfl

@[simp] theorem State.passBoundary_mem (s : State) : s.passBoundary.mem = s.mem := rfl

@[simp] theorem State.passBoundary_stored (s : State) : s.passBoundary.stored = s.stored := rfl

@[simp] theorem State.passBoundary_trapRec (s : State) : s.passBoundary.trapRec = s.trapRec := rfl

@[simp] theorem State.passBoundary_interrupts (s : State) : s.passBoundary.interrupts = s.interrupts.tail := rfl

/-! ## `State.holdInterrupt` -/

@[simp] theorem State.holdInterrupt_cfg (s : State) : s.holdInterrupt.cfg = s.cfg := rfl

@[simp] theorem State.holdInterrupt_gpr (s : State) : s.holdInterrupt.gpr = s.gpr := rfl

@[simp] theorem State.holdInterrupt_hi (s : State) : s.holdInterrupt.hi = s.hi := rfl

@[simp] theorem State.holdInterrupt_lo (s : State) : s.holdInterrupt.lo = s.lo := rfl

@[simp] theorem State.holdInterrupt_c0 (s : State) : s.holdInterrupt.c0 = s.c0 := rfl

@[simp] theorem State.holdInterrupt_pc (s : State) : s.holdInterrupt.pc = s.pc := rfl

@[simp] theorem State.holdInterrupt_npc (s : State) : s.holdInterrupt.npc = s.npc := rfl

@[simp] theorem State.holdInterrupt_bd (s : State) : s.holdInterrupt.bd = s.bd := rfl

@[simp] theorem State.holdInterrupt_mem (s : State) : s.holdInterrupt.mem = s.mem := rfl

@[simp] theorem State.holdInterrupt_stored (s : State) : s.holdInterrupt.stored = s.stored := rfl

@[simp] theorem State.holdInterrupt_trapRec (s : State) : s.holdInterrupt.trapRec = s.trapRec := rfl

/-! ## `State.loadAtPc` -/

@[simp] theorem State.loadAtPc_cfg (s : State) (w : Word) : (s.loadAtPc w).cfg = s.cfg := rfl

@[simp] theorem State.loadAtPc_gpr (s : State) (w : Word) : (s.loadAtPc w).gpr = s.gpr := rfl

@[simp] theorem State.loadAtPc_hi (s : State) (w : Word) : (s.loadAtPc w).hi = s.hi := rfl

@[simp] theorem State.loadAtPc_lo (s : State) (w : Word) : (s.loadAtPc w).lo = s.lo := rfl

@[simp] theorem State.loadAtPc_c0 (s : State) (w : Word) : (s.loadAtPc w).c0 = s.c0 := rfl

@[simp] theorem State.loadAtPc_pc (s : State) (w : Word) : (s.loadAtPc w).pc = s.pc := rfl

@[simp] theorem State.loadAtPc_npc (s : State) (w : Word) : (s.loadAtPc w).npc = s.npc := rfl

@[simp] theorem State.loadAtPc_bd (s : State) (w : Word) : (s.loadAtPc w).bd = s.bd := rfl

@[simp] theorem State.loadAtPc_mem (s : State) (w : Word) :
    (s.loadAtPc w).mem = s.mem.writeWord s.cfg.endian s.pc w := rfl

@[simp] theorem State.loadAtPc_stored (s : State) (w : Word) :
    (s.loadAtPc w).stored = s.stored.remove s.pc.toNat := rfl

@[simp] theorem State.loadAtPc_trapRec (s : State) (w : Word) : (s.loadAtPc w).trapRec = s.trapRec := rfl

@[simp] theorem State.loadAtPc_interrupts (s : State) (w : Word) :
    (s.loadAtPc w).interrupts = s.holdInterrupt.interrupts := rfl

/-! ## What is not a field's whole value -/

theorem State.writeGpr_gpr (s : State) (r : RegNum) (v : Word) :
    (s.writeGpr r v).gpr = if r = 0 then s.gpr else s.gpr.set r.toNat v := by
  unfold State.writeGpr; split <;> rfl

theorem State.writeC0_c0 (s : State) (r : RegNum) (v : Word) : (s.writeC0 r v).c0 =
    match s.cfg.c0Access with
    | .plain => s.c0.set r.toNat v
    | .custom => Config.c0Write s.c0 r v := by
  unfold State.writeC0; split <;> simp_all

theorem State.writeWord_stored (s : State) (a v : Word) : (s.writeWord a v).stored =
    match s.cfg.smcPolicy with
    | .refuse => s.stored.insert a.toNat
    | .coherent => s.stored := rfl

end Sys2Proof.Machine
end

