-- ==== Sys2Proof/Laws/Registers.lean ====
section
/-! SUPPORT. The register files: what is read after a write. -/

namespace Sys2Proof.Machine

/-- `x[0]` reads 0 (R21). -/
@[simp] theorem State.readGpr_zero (s : State) : s.readGpr 0 = 0 := rfl

/-- `x[0]` reads 0, spelled as `simp` spells the register number. -/
@[simp] theorem State.readGpr_zeroNum (s : State) : s.readGpr 0#5 = 0#32 := rfl

/-- Reading a general register after a write of one (R12, R21). -/
theorem State.readGpr_writeGpr (s : State) (q r : RegNum) (v : Word) :
    (s.writeGpr q v).readGpr r = if r = 0 then 0 else if r = q then v else s.readGpr r := by
  unfold State.readGpr
  by_cases h0 : r = 0
  · simp [h0]
  · simp only [h0, if_false, State.writeGpr_gpr]
    by_cases hq : q = 0
    · subst hq
      simp only [h0, if_false, if_true]
    · simp only [hq, if_false, Vector.getElem_set]
      by_cases hr : r = q
      · simp [hr]
      · have : q.toNat ≠ r.toNat := fun e => hr (BitVec.eq_of_toNat_eq e.symm)
        simp [hr, this]

/-- Reading a general register after a write of the whole file (R21). -/
theorem State.readGpr_writeGprs (s : State) (f : RegFile) (r : RegNum) :
    (s.writeGprs f).readGpr r = if r = 0 then 0 else f[r.toNat] := by
  unfold State.readGpr
  by_cases h0 : r = 0
  · simp [h0]
  · have : (0 : Nat) ≠ r.toNat := fun e => h0 (BitVec.eq_of_toNat_eq e.symm)
    simp only [h0, if_false, State.writeGprs_gpr, Vector.getElem_set]
    simp [this]

/-- Two states with the same file of general registers read alike. -/
theorem State.readGpr_congr {s t : State} (h : t.gpr = s.gpr) (r : RegNum) : t.readGpr r = s.readGpr r := by
  simp [State.readGpr, h]

@[simp] theorem State.readGpr_advance (s : State) (r : RegNum) : s.advance.readGpr r = s.readGpr r := rfl
@[simp] theorem State.readGpr_fallThrough (s : State) (r : RegNum) : s.fallThrough.readGpr r = s.readGpr r := rfl
@[simp] theorem State.readGpr_delayedJump (s : State) (a : Word) (r : RegNum) :
    (s.delayedJump a).readGpr r = s.readGpr r := rfl
@[simp] theorem State.readGpr_branchIf (s : State) (c : Bool) (a : Word) (r : RegNum) :
    (s.branchIf c a).readGpr r = s.readGpr r := by cases c <;> rfl
@[simp] theorem State.readGpr_enterHandler (s : State) (a : Word) (x : ExcRecord) (r : RegNum) :
    (s.enterHandler a x).readGpr r = s.readGpr r := rfl
@[simp] theorem State.readGpr_passBoundary (s : State) (r : RegNum) : s.passBoundary.readGpr r = s.readGpr r := rfl
@[simp] theorem State.readGpr_writeWord (s : State) (a v : Word) (r : RegNum) :
    (s.writeWord a v).readGpr r = s.readGpr r := rfl
@[simp] theorem State.readGpr_writeC0 (s : State) (q : RegNum) (v : Word) (r : RegNum) :
    (s.writeC0 q v).readGpr r = s.readGpr r := State.readGpr_congr (State.writeC0_gpr s q v) r

/-- Reading a coprocessor 0 register after a write of one, under the default `C0Read` and `C0Write` (R27). -/
theorem State.readC0_writeC0 {s : State} (h : s.cfg.c0Access = .plain) (q r : RegNum) (v : Word) :
    (s.writeC0 q v).readC0 r = if r = q then v else s.readC0 r := by
  simp only [State.readC0, State.writeC0_cfg, h, State.writeC0_c0, Vector.getElem_set]
  by_cases hr : r = q
  · simp [hr]
  · have : q.toNat ≠ r.toNat := fun e => hr (BitVec.eq_of_toNat_eq e.symm)
    simp [hr, this]

/-- The cell of `x[0]` stays 0 under every write of a general register. -/
theorem State.writeGpr_zeroCell {s : State} (h : s.gpr[0] = 0) (r : RegNum) (v : Word) :
    (s.writeGpr r v).gpr[0] = 0 := by
  simp only [State.writeGpr_gpr]
  split
  · exact h
  · rename_i h0
    have : r.toNat ≠ 0 := fun e => h0 (BitVec.eq_of_toNat_eq e)
    simp [this, h]

end Sys2Proof.Machine
end

