-- ==== Sys2Proof/Laws/Ops.lean ====
section
/-! SUPPORT. For each shared operation, one lemma that says all it can do; later proofs cite these and do not
unfold the operation. -/

namespace Sys2Proof.Machine

/-! ## Data accesses -/

/-- What `dataAddress` can answer (R251): the aligned address accessed, which is in `MemMap`; or a refusal, for
one of the two reasons. -/
theorem dataAddress_ok {c : Config} {ea a : Word} (h : dataAddress c ea = .ok a) :
    aligned a = true ∧ mapped c a = true ∧
    ((aligned ea = true ∧ a = ea) ∨ (aligned ea = false ∧ c.misalignedData = .forceAlign ∧ a = alignDown ea)) := by
  unfold dataAddress at h
  split at h
  · split at h
    · cases h; simp_all
    · cases h
  · split at h
    · cases h
    · split at h
      · cases h; simp_all [aligned_alignDown]
      · cases h

theorem dataAddress_error {c : Config} {ea : Word} {r : Refusal} (h : dataAddress c ea = .error r) :
    (r = .misalignedData ∧ aligned ea = false ∧ c.misalignedData = .refuse) ∨
    (r = .unmappedAccess ∧ ((aligned ea = true ∧ mapped c ea = false) ∨
      (aligned ea = false ∧ c.misalignedData = .forceAlign ∧ mapped c (alignDown ea) = false))) := by
  unfold dataAddress at h
  split at h
  · split at h <;> cases h; simp_all
  · split at h
    · cases h; simp_all
    · split at h <;> cases h; simp_all

theorem dataAddress_of_aligned {c : Config} {a : Word} (h : aligned a = true) (hm : mapped c a = true) :
    dataAddress c a = .ok a := by simp [dataAddress, h, hm]

theorem dataAddress_forced {c : Config} {ea : Word} (h : aligned ea = false) (hp : c.misalignedData = .forceAlign)
    (hm : mapped c (alignDown ea) = true) : dataAddress c ea = .ok (alignDown ea) := by
  simp [dataAddress, h, hp, hm]

/-- What a load can answer: the word at the address accessed, which has a value; or a refusal. -/
theorem State.loadWord_ok {s : State} {ea v : Word} (h : s.loadWord ea = .ok v) :
    ∃ a, dataAddress s.cfg ea = .ok a ∧ s.readWord a = some v := by
  unfold State.loadWord at h
  split at h
  · rename_i a ha
    split at h
    · rename_i w hw
      cases h
      exact ⟨a, ha, hw⟩
    · cases h
  · cases h

theorem State.loadWord_error {s : State} {ea : Word} {r : Refusal} (h : s.loadWord ea = .error r) :
    dataAddress s.cfg ea = .error r ∨
    (r = .unwrittenRead ∧ ∃ a, dataAddress s.cfg ea = .ok a ∧ s.readWord a = none) := by
  unfold State.loadWord at h
  split at h
  · rename_i a ha
    split at h
    · cases h
    · rename_i hw
      cases h
      exact .inr ⟨rfl, a, ha, hw⟩
  · cases h; simp_all

/-- What a store can answer: the word written at the address accessed; or a refusal of that address. -/
theorem State.storeWord_ok {s t : State} {ea v : Word} (h : s.storeWord ea v = .ok t) :
    ∃ a, dataAddress s.cfg ea = .ok a ∧ t = s.writeWord a v := by
  unfold State.storeWord at h
  split at h
  · rename_i a ha
    cases h
    exact ⟨a, ha, rfl⟩
  · cases h

theorem State.storeWord_error {s : State} {ea v : Word} {r : Refusal} (h : s.storeWord ea v = .error r) :
    dataAddress s.cfg ea = .error r := by
  unfold State.storeWord at h
  split at h <;> cases h; assumption

/-! ## How a step ends -/

theorem State.finish_next {x : Except Refusal State} {t : State} (h : State.finish x = .next t) :
    ∃ u, x = .ok u ∧ t = u.advance := by
  cases x <;> simp_all [State.finish]

theorem State.finish_refused {x : Except Refusal State} {r : Refusal} (h : State.finish x = .refused r) :
    x = .error r := by
  cases x <;> simp_all [State.finish]

theorem State.finish_ne_fault (x : Except Refusal State) (f : Fault) : State.finish x ≠ .fault f := by
  cases x <;> simp [State.finish]

theorem State.outsideDelaySlot_next {s : State} {x : Result} {t : State}
    (h : s.outsideDelaySlot x = .next t) : s.bd = false ∧ x = .next t := by
  unfold State.outsideDelaySlot at h
  split at h
  · cases h
  · simp_all

theorem unlessUnpredictable_next {b : Bool} {x : Result} {t : State}
    (h : unlessUnpredictable b x = .next t) : b = false ∧ x = .next t := by
  unfold unlessUnpredictable at h
  split at h
  · cases h
  · simp_all

/-- What a conditional branch can do: outside a delay slot, on to the delay slot with the target or the next
instruction after it. -/
theorem State.branch_next {s t : State} {c : Bool} {o : BitVec 16} (h : s.branch c o = .next t) :
    s.bd = false ∧ t = s.branchIf c (branchTarget s.pc o) := by
  have := State.outsideDelaySlot_next h
  simp_all

/-- What a branch and link can do. -/
theorem State.branchAndLink_next {s t : State} {r : RegNum} {c : Bool} {o : BitVec 16}
    (h : s.branchAndLink r c o = .next t) :
    s.bd = false ∧ r ≠ 31 ∧
    t = (if c || s.cfg.linkOnNotTaken then s.writeGpr 31 (returnLink s.pc) else s).branchIf c
      (branchTarget s.pc o) := by
  obtain ⟨hb, h⟩ := State.outsideDelaySlot_next h
  obtain ⟨hr, h⟩ := unlessUnpredictable_next h
  refine ⟨hb, by simpa using hr, ?_⟩
  cases h; rfl

/-! ## Exceptions -/

/-- The handler addresses `TrapEntry` gives: none with `terminal`. -/
theorem State.handlerAddress_none {s : State} {r : ExcRecord} :
    s.handlerAddress r = none ↔ s.cfg.trapEntry = .terminal := by
  unfold State.handlerAddress; split <;> simp_all

/-- With `handler a` it is `a`; with `custom`, the function's value. -/
theorem State.handlerAddress_some {s : State} {r : ExcRecord} {a : Word} :
    s.handlerAddress r = some a ↔
      s.cfg.trapEntry = .handler a ∨ (s.cfg.trapEntry = .custom ∧ a = Config.trapEntryPc s r) := by
  unfold State.handlerAddress
  cases s.cfg.trapEntry <;> simp [eq_comm]

/-- What taking an exception can do: with `TrapEntry = terminal` the run ends with the record; with a handler
address the next state is at it. -/
theorem takeException_cases (s : State) (k : ExcKind) :
    (s.cfg.trapEntry = .terminal ∧ takeException s k = .fault (.trapped (s.excRecord k))) ∨
    (∃ a, s.handlerAddress (s.excRecord k) = some a ∧
      takeException s k = .next (s.enterHandler a (s.excRecord k))) := by
  unfold takeException
  cases h : s.handlerAddress (s.excRecord k) with
  | none => exact .inl ⟨State.handlerAddress_none.1 h, rfl⟩
  | some a => exact .inr ⟨a, rfl, rfl⟩

theorem takeException_ne_refused (s : State) (k : ExcKind) (r : Refusal) : takeException s k ≠ .refused r := by
  rcases takeException_cases s k with ⟨_, h⟩ | ⟨a, _, h⟩ <;> simp [h]

theorem takeException_next {s t : State} {k : ExcKind} (h : takeException s k = .next t) :
    ∃ a, s.handlerAddress (s.excRecord k) = some a ∧ t = s.enterHandler a (s.excRecord k) := by
  rcases takeException_cases s k with ⟨_, e⟩ | ⟨a, ha, e⟩
  · rw [e] at h; cases h
  · rw [e] at h; cases h; exact ⟨a, ha, rfl⟩

theorem takeException_fault {s : State} {k : ExcKind} {f : Fault} (h : takeException s k = .fault f) :
    s.cfg.trapEntry = .terminal ∧ f = .trapped (s.excRecord k) := by
  rcases takeException_cases s k with ⟨ht, e⟩ | ⟨a, ha, e⟩
  · rw [e] at h; cases h; exact ⟨ht, rfl⟩
  · rw [e] at h; cases h

@[simp] theorem State.excRecord_kind (s : State) (k : ExcKind) : (s.excRecord k).kind = k := rfl
@[simp] theorem State.excRecord_victim (s : State) (k : ExcKind) : (s.excRecord k).victim = s.pc := rfl
@[simp] theorem State.excRecord_bd (s : State) (k : ExcKind) : (s.excRecord k).bd = s.bd := rfl
@[simp] theorem State.excRecord_restart (s : State) (k : ExcKind) :
    (s.excRecord k).restart = if s.bd then s.pc - 4 else s.pc := rfl

/-! ## The coprocessor system -/

/-- What COP0 can do: be refused, raise an exception, or complete with an effect that `Cop0Op` gives. -/
theorem State.finishCop0_cases (s : State) (o : Cop0Outcome) :
    (o = .refused ∧ s.finishCop0 o = .refused .cop0Operation) ∨
    (∃ k, o = .raises k ∧ s.finishCop0 o = takeException s k) ∨
    (∃ e, o = .completes e ∧ s.finishCop0 o = .next (s.applyCop0 e)) := by
  cases o with
  | refused => exact .inl ⟨rfl, rfl⟩
  | raises k => exact .inr (.inl ⟨k, rfl, rfl⟩)
  | completes e => exact .inr (.inr ⟨e, rfl, rfl⟩)

/-- The outcome of an operation where the parameter is no function of the user's: a refusal, or an effect on
general registers and coprocessor 0 registers alone, with the next instruction following. -/
theorem State.cop0Outcome_cases (s : State) (f : BitVec 21) (h : s.cfg.cop0Op ≠ .custom) :
    (s.cfg.cop0Op = .refuse ∧ s.cop0Outcome f = .refused) ∨
    (s.cfg.cop0Op = .perform ∧ s.cop0Outcome f = .completes
      { gpr := Config.cop0Gprs f s, hi := s.hi, lo := s.lo, c0 := Config.cop0File f s, writes := [],
        control := .goOn }) := by
  unfold State.cop0Outcome
  cases hp : s.cfg.cop0Op <;> simp_all

/-- Reading a byte outside the words written gives what it gave before. -/
theorem State.readByte_writeWords (s : State) (ws : List (Word × Word)) (x : Word)
    (h : ∀ p ∈ ws, x.toNat < p.1.toNat ∨ p.1.toNat + 4 ≤ x.toNat) :
    (s.writeWords ws).readByte x = s.readByte x := by
  induction ws generalizing s with
  | nil => rfl
  | cons p ws ih =>
    simp only [State.writeWords]
    rw [ih _ fun q hq => h q (List.mem_cons_of_mem _ hq)]
    split
    · exact Memory.get_writeWord_outside _ _ _ _ (h p List.mem_cons_self)
    · rfl

/-- The stored words after a sequence of writes. -/
theorem State.mem_stored_writeWords (s : State) (ws : List (Word × Word)) (x : Nat) :
    x ∈ (s.writeWords ws).stored ↔ x ∈ s.stored ∨ (s.cfg.smcPolicy = .refuse ∧
      ∃ p ∈ ws, aligned p.1 = true ∧ mapped s.cfg p.1 = true ∧ x = p.1.toNat) := by
  induction ws generalizing s with
  | nil => simp [State.writeWords]
  | cons p ws ih =>
    simp only [State.writeWords]
    rw [ih]
    split
    · rename_i h
      simp only [Bool.and_eq_true] at h
      cases hp : s.cfg.smcPolicy
      · simp [State.writeWord_stored, hp, h]; tauto
      · simp [State.writeWord_stored, hp]
    · rename_i h
      simp only [Bool.and_eq_true, not_and] at h
      simp only [List.mem_cons, exists_eq_or_imp]
      tauto

/-- A property of memory and the stored words that one write in `MemMap` keeps is kept by a sequence of writes. -/
theorem State.writeWords_induct {P : State → Prop} (ws : List (Word × Word)) (s : State) (hs : P s)
    (h : ∀ s a v, aligned a = true → mapped s.cfg a = true → P s → P (s.writeWord a v)) : P (s.writeWords ws) := by
  induction ws generalizing s with
  | nil => exact hs
  | cons p ws ih =>
    simp only [State.writeWords]
    split
    · rename_i hp
      simp only [Bool.and_eq_true] at hp
      exact ih _ (h _ _ _ hp.1 hp.2 hs)
    · exact ih _ hs

/-! ## Fetch and step -/

/-- What a fetch can answer: the word at `pc`, which is aligned, in `MemMap`, not stored by the program under
`SMC_POLICY = refuse`, and has a value. -/
theorem fetch_ok {s : State} {w : Word} (h : fetch s = .ok w) :
    aligned s.pc = true ∧ mapped s.cfg s.pc = true ∧
    ¬(s.cfg.smcPolicy = .refuse ∧ s.stored.has s.pc.toNat = true) ∧ s.readWord s.pc = some w := by
  unfold fetch at h
  split at h
  · cases h
  · split at h
    · cases h
    · split at h
      · cases h
      · split at h
        · cases h; simp_all
        · cases h

theorem fetch_of {s : State} {w : Word} (ha : aligned s.pc = true) (hm : mapped s.cfg s.pc = true)
    (hs : ¬(s.cfg.smcPolicy = .refuse ∧ s.stored.has s.pc.toNat = true)) (hw : s.readWord s.pc = some w) :
    fetch s = .ok w := by
  unfold fetch
  simp only [ha, hm, hw]
  rw [if_neg (by simp), if_neg (by simp), if_neg hs]

/-- What a step can do: take an interrupt that is due, or fetch a word and execute it or treat it as reserved,
or be refused by the fetch. -/
theorem step_cases (s : State) :
    (∃ n, s.arrival = some n ∧ step s = takeException s.passBoundary (.interrupt n)) ∨
    (s.arrival = none ∧
      ((∃ r, fetch s.passBoundary = .error r ∧ step s = .refused r) ∨
       (∃ w i, fetch s.passBoundary = .ok w ∧ decode w = .ok i ∧ step s = exec i s.passBoundary) ∨
       (∃ w e, fetch s.passBoundary = .ok w ∧ decode w = .error e ∧ step s = reservedWord s.passBoundary))) := by
  unfold step
  cases ha : s.arrival with
  | some n => exact .inl ⟨n, rfl, rfl⟩
  | none =>
    refine .inr ⟨rfl, ?_⟩
    simp only [stepInstruction]
    cases hf : fetch s.passBoundary with
    | error r => exact .inl ⟨r, rfl, rfl⟩
    | ok w =>
      cases hd : decode w with
      | ok i => exact .inr (.inl ⟨w, i, rfl, hd, by simp [hd]⟩)
      | error e => exact .inr (.inr ⟨w, e, rfl, hd, by simp [hd]⟩)

theorem reservedWord_next {s t : State} (h : reservedWord s = .next t) :
    s.cfg.reservedPolicy = .trap ∧ takeException s .reservedInstruction = .next t := by
  unfold reservedWord at h
  split at h
  · cases h
  · exact ⟨by assumption, h⟩

end Sys2Proof.Machine
end

