-- ==== Sys2Proof/Laws/PerInstr.lean ====
section
/-! SUPPORT. Made per instruction: the word `encode` gives an instruction matches a row of the opcode table, and
the row builds the instruction back from it (spec/30_encoding.md rules R81, R97). -/

namespace Sys2Proof.Laws

/-- The encoded word matches a row of the table, and that row builds the instruction from it. -/
def EncodeRow.Statement (i : Instr) : Prop :=
  ∃ r ∈ opRows, r.matches (encode i) = true ∧ r.build (encode i) = i

/-- The statement from the row's place in the table. -/
theorem EncodeRow.of_row {i : Instr} (k : Nat) (h : k < opRows.length)
    (hm : (opRows[k]).matches (encode i) = true) (hb : (opRows[k]).build (encode i) = i) :
    EncodeRow.Statement i :=
  ⟨opRows[k], List.getElem_mem h, hm, hb⟩

/-- A row matches a word whose fixed bits are the row's. -/
theorem EncodeRow.matches_of {r : OpRow} {w : Word} (h : w &&& r.mask = r.value) : r.matches w = true := by
  simp [OpRow.matches, h]

theorem EncodeRow.add (rd rs rt : RegNum) : EncodeRow.Statement (.add rd rs rt) :=
  EncodeRow.of_row 0 (by decide) (EncodeRow.matches_of (layoutR3_mask ..)) (by
    show Instr.add (rdField (layoutR3 rs rt rd 0x20)) (rsField (layoutR3 rs rt rd 0x20)) (rtField
      (layoutR3 rs rt rd 0x20)) = _
    simp only [layoutR3_rd, layoutR3_rs, layoutR3_rt])

theorem EncodeRow.addi (rt rs : RegNum) (immediate : BitVec 16) : EncodeRow.Statement (.addi rt rs immediate) :=
  EncodeRow.of_row 1 (by decide) (EncodeRow.matches_of (layoutI_mask ..)) (by
    show Instr.addi (rtField (layoutI 0x08 rs rt immediate)) (rsField (layoutI 0x08 rs rt immediate))
      (immField (layoutI 0x08 rs rt immediate)) = _
    simp only [layoutI_rt, layoutI_rs, layoutI_imm])

theorem EncodeRow.addiu (rt rs : RegNum) (immediate : BitVec 16) : EncodeRow.Statement (.addiu rt rs immediate) :=
  EncodeRow.of_row 2 (by decide) (EncodeRow.matches_of (layoutI_mask ..)) (by
    show Instr.addiu (rtField (layoutI 0x09 rs rt immediate)) (rsField (layoutI 0x09 rs rt immediate))
      (immField (layoutI 0x09 rs rt immediate)) = _
    simp only [layoutI_rt, layoutI_rs, layoutI_imm])

theorem EncodeRow.addu (rd rs rt : RegNum) : EncodeRow.Statement (.addu rd rs rt) :=
  EncodeRow.of_row 3 (by decide) (EncodeRow.matches_of (layoutR3_mask ..)) (by
    show Instr.addu (rdField (layoutR3 rs rt rd 0x21)) (rsField (layoutR3 rs rt rd 0x21)) (rtField
      (layoutR3 rs rt rd 0x21)) = _
    simp only [layoutR3_rd, layoutR3_rs, layoutR3_rt])

theorem EncodeRow.and (rd rs rt : RegNum) : EncodeRow.Statement (.and rd rs rt) :=
  EncodeRow.of_row 10 (by decide) (EncodeRow.matches_of (layoutR3_mask ..)) (by
    show Instr.and (rdField (layoutR3 rs rt rd 0x24)) (rsField (layoutR3 rs rt rd 0x24)) (rtField
      (layoutR3 rs rt rd 0x24)) = _
    simp only [layoutR3_rd, layoutR3_rs, layoutR3_rt])

theorem EncodeRow.andi (rt rs : RegNum) (immediate : BitVec 16) : EncodeRow.Statement (.andi rt rs immediate) :=
  EncodeRow.of_row 11 (by decide) (EncodeRow.matches_of (layoutI_mask ..)) (by
    show Instr.andi (rtField (layoutI 0x0C rs rt immediate)) (rsField (layoutI 0x0C rs rt immediate))
      (immField (layoutI 0x0C rs rt immediate)) = _
    simp only [layoutI_rt, layoutI_rs, layoutI_imm])

theorem EncodeRow.beq (rs rt : RegNum) (offset : BitVec 16) : EncodeRow.Statement (.beq rs rt offset) :=
  EncodeRow.of_row 30 (by decide) (EncodeRow.matches_of (layoutI_mask ..)) (by
    show Instr.beq (rsField (layoutI 0x04 rs rt offset)) (rtField (layoutI 0x04 rs rt offset)) (immField
      (layoutI 0x04 rs rt offset)) = _
    simp only [layoutI_rs, layoutI_rt, layoutI_imm])

theorem EncodeRow.bgez (rs : RegNum) (offset : BitVec 16) : EncodeRow.Statement (.bgez rs offset) :=
  EncodeRow.of_row 32 (by decide) (EncodeRow.matches_of (layoutRI_mask ..)) (by
    show Instr.bgez (rsField (layoutRI rs 0b00001 offset)) (immField (layoutRI rs 0b00001 offset)) = _
    simp only [layoutRI_rs, layoutRI_imm])

theorem EncodeRow.bgezal (rs : RegNum) (offset : BitVec 16) : EncodeRow.Statement (.bgezal rs offset) :=
  EncodeRow.of_row 33 (by decide) (EncodeRow.matches_of (layoutRI_mask ..)) (by
    show Instr.bgezal (rsField (layoutRI rs 0b10001 offset)) (immField (layoutRI rs 0b10001 offset)) = _
    simp only [layoutRI_rs, layoutRI_imm])

theorem EncodeRow.bgtz (rs : RegNum) (offset : BitVec 16) : EncodeRow.Statement (.bgtz rs offset) :=
  EncodeRow.of_row 34 (by decide) (EncodeRow.matches_of (layoutI_mask_rt ..)) (by
    show Instr.bgtz (rsField (layoutI 0x07 rs 0 offset)) (immField (layoutI 0x07 rs 0 offset)) = _
    simp only [layoutI_rs, layoutI_imm])

theorem EncodeRow.blez (rs : RegNum) (offset : BitVec 16) : EncodeRow.Statement (.blez rs offset) :=
  EncodeRow.of_row 35 (by decide) (EncodeRow.matches_of (layoutI_mask_rt ..)) (by
    show Instr.blez (rsField (layoutI 0x06 rs 0 offset)) (immField (layoutI 0x06 rs 0 offset)) = _
    simp only [layoutI_rs, layoutI_imm])

theorem EncodeRow.bltz (rs : RegNum) (offset : BitVec 16) : EncodeRow.Statement (.bltz rs offset) :=
  EncodeRow.of_row 36 (by decide) (EncodeRow.matches_of (layoutRI_mask ..)) (by
    show Instr.bltz (rsField (layoutRI rs 0b00000 offset)) (immField (layoutRI rs 0b00000 offset)) = _
    simp only [layoutRI_rs, layoutRI_imm])

theorem EncodeRow.bltzal (rs : RegNum) (offset : BitVec 16) : EncodeRow.Statement (.bltzal rs offset) :=
  EncodeRow.of_row 37 (by decide) (EncodeRow.matches_of (layoutRI_mask ..)) (by
    show Instr.bltzal (rsField (layoutRI rs 0b10000 offset)) (immField (layoutRI rs 0b10000 offset)) = _
    simp only [layoutRI_rs, layoutRI_imm])

theorem EncodeRow.bne (rs rt : RegNum) (offset : BitVec 16) : EncodeRow.Statement (.bne rs rt offset) :=
  EncodeRow.of_row 31 (by decide) (EncodeRow.matches_of (layoutI_mask ..)) (by
    show Instr.bne (rsField (layoutI 0x05 rs rt offset)) (rtField (layoutI 0x05 rs rt offset)) (immField
      (layoutI 0x05 rs rt offset)) = _
    simp only [layoutI_rs, layoutI_rt, layoutI_imm])

theorem EncodeRow.brk (code : BitVec 20) : EncodeRow.Statement (.brk code) :=
  EncodeRow.of_row 49 (by decide) (EncodeRow.matches_of (layoutRC_mask ..)) (by
    show Instr.brk (codeField (layoutRC code 0x0D)) = _
    simp only [layoutRC_code])

theorem EncodeRow.cop0 (copFun : BitVec 21) : EncodeRow.Statement (.cop0 copFun) :=
  EncodeRow.of_row 44 (by decide) (EncodeRow.matches_of (layoutCF_mask ..)) (by
    show Instr.cop0 (copFunField (layoutCF copFun)) = _
    simp only [layoutCF_copFun])

theorem EncodeRow.j (instrIndex : BitVec 26) : EncodeRow.Statement (.j instrIndex) :=
  EncodeRow.of_row 38 (by decide) (EncodeRow.matches_of (layoutJ_mask ..)) (by
    show Instr.j (indexField (layoutJ 0x02 instrIndex)) = _
    simp only [layoutJ_index])

theorem EncodeRow.jal (instrIndex : BitVec 26) : EncodeRow.Statement (.jal instrIndex) :=
  EncodeRow.of_row 39 (by decide) (EncodeRow.matches_of (layoutJ_mask ..)) (by
    show Instr.jal (indexField (layoutJ 0x03 instrIndex)) = _
    simp only [layoutJ_index])

theorem EncodeRow.jr (rs : RegNum) : EncodeRow.Statement (.jr rs) :=
  EncodeRow.of_row 40 (by decide) (EncodeRow.matches_of (layoutR1_mask ..)) (by
    show Instr.jr (rsField (layoutR1 rs 0x08)) = _
    simp only [layoutR1_rs])

theorem EncodeRow.jalr (rd rs : RegNum) : EncodeRow.Statement (.jalr rd rs) :=
  EncodeRow.of_row 41 (by decide) (EncodeRow.matches_of (layoutR2J_mask ..)) (by
    show Instr.jalr (rdField (layoutR2J rs rd 0x09)) (rsField (layoutR2J rs rd 0x09)) = _
    simp only [layoutR2J_rd, layoutR2J_rs])

theorem EncodeRow.lui (rt : RegNum) (immediate : BitVec 16) : EncodeRow.Statement (.lui rt immediate) :=
  EncodeRow.of_row 17 (by decide) (EncodeRow.matches_of (layoutI_mask_rs ..)) (by
    show Instr.lui (rtField (layoutI 0x0F 0 rt immediate)) (immField (layoutI 0x0F 0 rt immediate)) = _
    simp only [layoutI_rt, layoutI_imm])

theorem EncodeRow.lw (rt : RegNum) (offset : BitVec 16) (base : RegNum) : EncodeRow.Statement (.lw rt offset base) :=
  EncodeRow.of_row 42 (by decide) (EncodeRow.matches_of (layoutI_mask ..)) (by
    show Instr.lw (rtField (layoutI 0x23 base rt offset)) (immField (layoutI 0x23 base rt offset)) (rsField
      (layoutI 0x23 base rt offset)) = _
    simp only [layoutI_rt, layoutI_imm, layoutI_rs])

theorem EncodeRow.lwc0 (cs : RegNum) (offset : BitVec 16) (base : RegNum) : EncodeRow.Statement (.lwc0 cs offset base) :=
  EncodeRow.of_row 47 (by decide) (EncodeRow.matches_of (layoutI_mask ..)) (by
    show Instr.lwc0 (rtField (layoutI 0x30 base cs offset)) (immField (layoutI 0x30 base cs offset)) (rsField
      (layoutI 0x30 base cs offset)) = _
    simp only [layoutI_rt, layoutI_imm, layoutI_rs])

theorem EncodeRow.mfc0 (rt cs : RegNum) : EncodeRow.Statement (.mfc0 rt cs) :=
  EncodeRow.of_row 45 (by decide) (EncodeRow.matches_of (layoutCM_mask ..)) (by
    show Instr.mfc0 (rtField (layoutCM 0b00000 rt cs)) (rdField (layoutCM 0b00000 rt cs)) = _
    simp only [layoutCM_rt, layoutCM_cs])

theorem EncodeRow.mfhi (rd : RegNum) : EncodeRow.Statement (.mfhi rd) :=
  EncodeRow.of_row 26 (by decide) (EncodeRow.matches_of (layoutRD_mask ..)) (by
    show Instr.mfhi (rdField (layoutRD rd 0x10)) = _
    simp only [layoutRD_rd])

theorem EncodeRow.mflo (rd : RegNum) : EncodeRow.Statement (.mflo rd) :=
  EncodeRow.of_row 27 (by decide) (EncodeRow.matches_of (layoutRD_mask ..)) (by
    show Instr.mflo (rdField (layoutRD rd 0x12)) = _
    simp only [layoutRD_rd])

theorem EncodeRow.mtc0 (rt cs : RegNum) : EncodeRow.Statement (.mtc0 rt cs) :=
  EncodeRow.of_row 46 (by decide) (EncodeRow.matches_of (layoutCM_mask ..)) (by
    show Instr.mtc0 (rtField (layoutCM 0b00100 rt cs)) (rdField (layoutCM 0b00100 rt cs)) = _
    simp only [layoutCM_rt, layoutCM_cs])

theorem EncodeRow.mthi (rs : RegNum) : EncodeRow.Statement (.mthi rs) :=
  EncodeRow.of_row 28 (by decide) (EncodeRow.matches_of (layoutR1_mask ..)) (by
    show Instr.mthi (rsField (layoutR1 rs 0x11)) = _
    simp only [layoutR1_rs])

theorem EncodeRow.mtlo (rs : RegNum) : EncodeRow.Statement (.mtlo rs) :=
  EncodeRow.of_row 29 (by decide) (EncodeRow.matches_of (layoutR1_mask ..)) (by
    show Instr.mtlo (rsField (layoutR1 rs 0x13)) = _
    simp only [layoutR1_rs])

theorem EncodeRow.mult (rs rt : RegNum) : EncodeRow.Statement (.mult rs rt) :=
  EncodeRow.of_row 24 (by decide) (EncodeRow.matches_of (layoutRM_mask ..)) (by
    show Instr.mult (rsField (layoutRM rs rt 0x18)) (rtField (layoutRM rs rt 0x18)) = _
    simp only [layoutRM_rs, layoutRM_rt])

theorem EncodeRow.multu (rs rt : RegNum) : EncodeRow.Statement (.multu rs rt) :=
  EncodeRow.of_row 25 (by decide) (EncodeRow.matches_of (layoutRM_mask ..)) (by
    show Instr.multu (rsField (layoutRM rs rt 0x19)) (rtField (layoutRM rs rt 0x19)) = _
    simp only [layoutRM_rs, layoutRM_rt])

theorem EncodeRow.nor (rd rs rt : RegNum) : EncodeRow.Statement (.nor rd rs rt) :=
  EncodeRow.of_row 12 (by decide) (EncodeRow.matches_of (layoutR3_mask ..)) (by
    show Instr.nor (rdField (layoutR3 rs rt rd 0x27)) (rsField (layoutR3 rs rt rd 0x27)) (rtField
      (layoutR3 rs rt rd 0x27)) = _
    simp only [layoutR3_rd, layoutR3_rs, layoutR3_rt])

theorem EncodeRow.or (rd rs rt : RegNum) : EncodeRow.Statement (.or rd rs rt) :=
  EncodeRow.of_row 13 (by decide) (EncodeRow.matches_of (layoutR3_mask ..)) (by
    show Instr.or (rdField (layoutR3 rs rt rd 0x25)) (rsField (layoutR3 rs rt rd 0x25)) (rtField
      (layoutR3 rs rt rd 0x25)) = _
    simp only [layoutR3_rd, layoutR3_rs, layoutR3_rt])

theorem EncodeRow.ori (rt rs : RegNum) (immediate : BitVec 16) : EncodeRow.Statement (.ori rt rs immediate) :=
  EncodeRow.of_row 14 (by decide) (EncodeRow.matches_of (layoutI_mask ..)) (by
    show Instr.ori (rtField (layoutI 0x0D rs rt immediate)) (rsField (layoutI 0x0D rs rt immediate)) (immField
      (layoutI 0x0D rs rt immediate)) = _
    simp only [layoutI_rt, layoutI_rs, layoutI_imm])

theorem EncodeRow.sll (rd rt : RegNum) (sa : BitVec 5) : EncodeRow.Statement (.sll rd rt sa) :=
  EncodeRow.of_row 18 (by decide) (EncodeRow.matches_of (layoutRS_mask ..)) (by
    show Instr.sll (rdField (layoutRS rt rd sa 0x00)) (rtField (layoutRS rt rd sa 0x00)) (saField
      (layoutRS rt rd sa 0x00)) = _
    simp only [layoutRS_rd, layoutRS_rt, layoutRS_sa])

theorem EncodeRow.sllv (rd rt rs : RegNum) : EncodeRow.Statement (.sllv rd rt rs) :=
  EncodeRow.of_row 19 (by decide) (EncodeRow.matches_of (layoutR3_mask ..)) (by
    show Instr.sllv (rdField (layoutR3 rs rt rd 0x04)) (rtField (layoutR3 rs rt rd 0x04)) (rsField
      (layoutR3 rs rt rd 0x04)) = _
    simp only [layoutR3_rd, layoutR3_rt, layoutR3_rs])

theorem EncodeRow.slt (rd rs rt : RegNum) : EncodeRow.Statement (.slt rd rs rt) :=
  EncodeRow.of_row 6 (by decide) (EncodeRow.matches_of (layoutR3_mask ..)) (by
    show Instr.slt (rdField (layoutR3 rs rt rd 0x2A)) (rsField (layoutR3 rs rt rd 0x2A)) (rtField
      (layoutR3 rs rt rd 0x2A)) = _
    simp only [layoutR3_rd, layoutR3_rs, layoutR3_rt])

theorem EncodeRow.slti (rt rs : RegNum) (immediate : BitVec 16) : EncodeRow.Statement (.slti rt rs immediate) :=
  EncodeRow.of_row 7 (by decide) (EncodeRow.matches_of (layoutI_mask ..)) (by
    show Instr.slti (rtField (layoutI 0x0A rs rt immediate)) (rsField (layoutI 0x0A rs rt immediate))
      (immField (layoutI 0x0A rs rt immediate)) = _
    simp only [layoutI_rt, layoutI_rs, layoutI_imm])

theorem EncodeRow.sltiu (rt rs : RegNum) (immediate : BitVec 16) : EncodeRow.Statement (.sltiu rt rs immediate) :=
  EncodeRow.of_row 8 (by decide) (EncodeRow.matches_of (layoutI_mask ..)) (by
    show Instr.sltiu (rtField (layoutI 0x0B rs rt immediate)) (rsField (layoutI 0x0B rs rt immediate))
      (immField (layoutI 0x0B rs rt immediate)) = _
    simp only [layoutI_rt, layoutI_rs, layoutI_imm])

theorem EncodeRow.sltu (rd rs rt : RegNum) : EncodeRow.Statement (.sltu rd rs rt) :=
  EncodeRow.of_row 9 (by decide) (EncodeRow.matches_of (layoutR3_mask ..)) (by
    show Instr.sltu (rdField (layoutR3 rs rt rd 0x2B)) (rsField (layoutR3 rs rt rd 0x2B)) (rtField
      (layoutR3 rs rt rd 0x2B)) = _
    simp only [layoutR3_rd, layoutR3_rs, layoutR3_rt])

theorem EncodeRow.sra (rd rt : RegNum) (sa : BitVec 5) : EncodeRow.Statement (.sra rd rt sa) :=
  EncodeRow.of_row 20 (by decide) (EncodeRow.matches_of (layoutRS_mask ..)) (by
    show Instr.sra (rdField (layoutRS rt rd sa 0x03)) (rtField (layoutRS rt rd sa 0x03)) (saField
      (layoutRS rt rd sa 0x03)) = _
    simp only [layoutRS_rd, layoutRS_rt, layoutRS_sa])

theorem EncodeRow.srav (rd rt rs : RegNum) : EncodeRow.Statement (.srav rd rt rs) :=
  EncodeRow.of_row 21 (by decide) (EncodeRow.matches_of (layoutR3_mask ..)) (by
    show Instr.srav (rdField (layoutR3 rs rt rd 0x07)) (rtField (layoutR3 rs rt rd 0x07)) (rsField
      (layoutR3 rs rt rd 0x07)) = _
    simp only [layoutR3_rd, layoutR3_rt, layoutR3_rs])

theorem EncodeRow.srl (rd rt : RegNum) (sa : BitVec 5) : EncodeRow.Statement (.srl rd rt sa) :=
  EncodeRow.of_row 22 (by decide) (EncodeRow.matches_of (layoutRS_mask ..)) (by
    show Instr.srl (rdField (layoutRS rt rd sa 0x02)) (rtField (layoutRS rt rd sa 0x02)) (saField
      (layoutRS rt rd sa 0x02)) = _
    simp only [layoutRS_rd, layoutRS_rt, layoutRS_sa])

theorem EncodeRow.srlv (rd rt rs : RegNum) : EncodeRow.Statement (.srlv rd rt rs) :=
  EncodeRow.of_row 23 (by decide) (EncodeRow.matches_of (layoutR3_mask ..)) (by
    show Instr.srlv (rdField (layoutR3 rs rt rd 0x06)) (rtField (layoutR3 rs rt rd 0x06)) (rsField
      (layoutR3 rs rt rd 0x06)) = _
    simp only [layoutR3_rd, layoutR3_rt, layoutR3_rs])

theorem EncodeRow.sub (rd rs rt : RegNum) : EncodeRow.Statement (.sub rd rs rt) :=
  EncodeRow.of_row 4 (by decide) (EncodeRow.matches_of (layoutR3_mask ..)) (by
    show Instr.sub (rdField (layoutR3 rs rt rd 0x22)) (rsField (layoutR3 rs rt rd 0x22)) (rtField
      (layoutR3 rs rt rd 0x22)) = _
    simp only [layoutR3_rd, layoutR3_rs, layoutR3_rt])

theorem EncodeRow.subu (rd rs rt : RegNum) : EncodeRow.Statement (.subu rd rs rt) :=
  EncodeRow.of_row 5 (by decide) (EncodeRow.matches_of (layoutR3_mask ..)) (by
    show Instr.subu (rdField (layoutR3 rs rt rd 0x23)) (rsField (layoutR3 rs rt rd 0x23)) (rtField
      (layoutR3 rs rt rd 0x23)) = _
    simp only [layoutR3_rd, layoutR3_rs, layoutR3_rt])

theorem EncodeRow.sw (rt : RegNum) (offset : BitVec 16) (base : RegNum) : EncodeRow.Statement (.sw rt offset base) :=
  EncodeRow.of_row 43 (by decide) (EncodeRow.matches_of (layoutI_mask ..)) (by
    show Instr.sw (rtField (layoutI 0x2B base rt offset)) (immField (layoutI 0x2B base rt offset)) (rsField
      (layoutI 0x2B base rt offset)) = _
    simp only [layoutI_rt, layoutI_imm, layoutI_rs])

theorem EncodeRow.swc0 (cs : RegNum) (offset : BitVec 16) (base : RegNum) : EncodeRow.Statement (.swc0 cs offset base) :=
  EncodeRow.of_row 48 (by decide) (EncodeRow.matches_of (layoutI_mask ..)) (by
    show Instr.swc0 (rtField (layoutI 0x38 base cs offset)) (immField (layoutI 0x38 base cs offset)) (rsField
      (layoutI 0x38 base cs offset)) = _
    simp only [layoutI_rt, layoutI_imm, layoutI_rs])

theorem EncodeRow.syscall (code : BitVec 20) : EncodeRow.Statement (.syscall code) :=
  EncodeRow.of_row 50 (by decide) (EncodeRow.matches_of (layoutRC_mask ..)) (by
    show Instr.syscall (codeField (layoutRC code 0x0C)) = _
    simp only [layoutRC_code])

theorem EncodeRow.xor (rd rs rt : RegNum) : EncodeRow.Statement (.xor rd rs rt) :=
  EncodeRow.of_row 15 (by decide) (EncodeRow.matches_of (layoutR3_mask ..)) (by
    show Instr.xor (rdField (layoutR3 rs rt rd 0x26)) (rsField (layoutR3 rs rt rd 0x26)) (rtField
      (layoutR3 rs rt rd 0x26)) = _
    simp only [layoutR3_rd, layoutR3_rs, layoutR3_rt])

theorem EncodeRow.xori (rt rs : RegNum) (immediate : BitVec 16) : EncodeRow.Statement (.xori rt rs immediate) :=
  EncodeRow.of_row 16 (by decide) (EncodeRow.matches_of (layoutI_mask ..)) (by
    show Instr.xori (rtField (layoutI 0x0E rs rt immediate)) (rsField (layoutI 0x0E rs rt immediate))
      (immField (layoutI 0x0E rs rt immediate)) = _
    simp only [layoutI_rt, layoutI_rs, layoutI_imm])

end Sys2Proof.Laws
end

