-- ==== Sys2Proof/Tests/Slice0.lean ====
section
/-! SUPPORT. Tests. The expected values are those of spec/95_test_vectors.md, named by part; a `test_witness_` theorem
shows a state and operands that meet the hypotheses of the statement it is named after. -/

namespace Sys2Proof.Tests

open Sys2Proof Sys2Proof.Machine

/-- A machine about to execute the word `w` at `pc`, outside a delay slot, with the registers `regs` set. -/
def machine (c : Config) (pc : Word) (regs : List (RegNum × Word)) (w : Word) : State :=
  let s := { State.launch c [] with pc := pc, npc := pc + 4 }
  (regs.foldl (fun s p => s.writeGpr p.1 p.2) s).loadAtPc w

/-- The same at 0x1000, with the defaults of R7. -/
def simple (regs : List (RegNum × Word)) (w : Word) : State := machine Config.default 0x1000 regs w

/-- One field of the state after one step, if the step has one. -/
def after {α : Type} (f : State → α) (s : State) : Option α := (nextOf (step s)).map f

/-- The reason a step is refused for, if it is. -/
def refusalOf : Result → Option Refusal
  | .refused r => some r
  | _ => none

/-- The fault a step ends in, if it does. -/
def faultOf : Result → Option Fault
  | .fault f => some f
  | _ => none

/-- Where control goes after one step: `pc`, `npc`, `bd`. -/
def control (s : State) : Option (Word × Word × Bool) := after (fun t => (t.pc, t.npc, t.bd)) s

/-- The defaults of R7, but with a handler. -/
def trapping : Config := { Config.default with trapEntry := .handler 0x80000080 }

/-- The defaults of R7, but with both alignments forced, a handler, and the coherent policy. -/
def forced : Config :=
  { trapping with misalignedData := .forceAlign, misalignedFetch := .forceAlign, smcPolicy := .coherent }

/-- The defaults of R7, but with one range of memory, 0x1000 to 0x1FFF. -/
def small : Config := { Config.default with memMap := [{ base := 0x1000, size := 0x1000 }] }

/-- The defaults of R7, but with a coprocessor of its own. -/
def coprocessor : Config := { Config.default with c0Access := .custom, cop0Op := .perform }

/-- The defaults of R7, but with the user's functions for `TrapEntry`, `C0Read`, `C0Write` and `Cop0Op`. -/
def custom : Config := { Config.default with trapEntry := .custom, c0Access := .custom, cop0Op := .custom }

/-! ## WellFormed refuses the three ill-formed forms, and each is UNPREDICTABLE -/

theorem test_wellFormed_bgezal :
    Instr.wellFormed (.bgezal 31 3) = false ∧ Instr.wellFormed (.bgezal 30 3) = true := by
  decide
theorem test_wellFormed_bltzal :
    Instr.wellFormed (.bltzal 31 3) = false ∧ Instr.wellFormed (.bltzal 30 3) = true := by
  decide
theorem test_wellFormed_jalr : Instr.wellFormed (.jalr 1 1) = false ∧ Instr.wellFormed (.jalr 0 0) = false ∧
    Instr.wellFormed (.jalr 31 1) = true := by decide
theorem test_unpredictable_bgezal : refusalOf (step (simple [] 0x07F10003)) = some .unpredictable := by decide
theorem test_unpredictable_bltzal : refusalOf (step (simple [] 0x07F00003)) = some .unpredictable := by decide
theorem test_unpredictable_jalr : refusalOf (step (simple [(1, 0x100)] 0x00200809)) = some .unpredictable := by decide

/-! ## Reserved words, part B13 -/

theorem test_reserved_1 :
    decode 0x00000001 = .error (.reservedEncoding 0x00000001) ∧
    decode 0x0000001A = .error (.reservedEncoding 0x0000001A) ∧
    decode 0x00200000 = .error (.reservedEncoding 0x00200000) :=
  ⟨by decide, by decide, by decide⟩
theorem test_reserved_2 :
    decode 0x00221860 = .error (.reservedEncoding 0x00221860) ∧
    decode 0x00010010 = .error (.reservedEncoding 0x00010010) ∧
    decode 0x00220818 = .error (.reservedEncoding 0x00220818) :=
  ⟨by decide, by decide, by decide⟩
theorem test_reserved_3 :
    decode 0x00000408 = .error (.reservedEncoding 0x00000408) ∧
    decode 0x04020000 = .error (.reservedEncoding 0x04020000) ∧
    decode 0x1C010000 = .error (.reservedEncoding 0x1C010000) :=
  ⟨by decide, by decide, by decide⟩
theorem test_reserved_4 :
    decode 0x3C220000 = .error (.reservedEncoding 0x3C220000) ∧
    decode 0x40000001 = .error (.reservedEncoding 0x40000001) ∧
    decode 0x40400000 = .error (.reservedEncoding 0x40400000) :=
  ⟨by decide, by decide, by decide⟩
theorem test_reserved_5 :
    decode 0x40A00000 = .error (.reservedEncoding 0x40A00000) ∧
    decode 0x80000000 = .error (.reservedEncoding 0x80000000) ∧
    decode 0xFFFFFFFF = .error (.reservedEncoding 0xFFFFFFFF) :=
  ⟨by decide, by decide, by decide⟩
theorem test_reserved_step : refusalOf (step (simple [] 0x0000001A)) = some .reservedEncoding := by decide
theorem test_decodeTableWord :
    decodeTableWord 32 0x00221820 = some (.add 3 1 2) ∧ decodeTableWord 32 0x1A = none := by
  decide
theorem test_decodeBytes_both :
    decodeBytes .big [0x8C, 0x22, 0x00, 0x08, 0xFF] = .ok (.lw 2 8 1, [0xFF]) ∧
    decodeBytes .little [0x08, 0x00, 0x22, 0x8C] = .ok (.lw 2 8 1, []) ∧
    decodeBytes .big [0x8C, 0x22, 0x00] = .error .truncated := by decide
theorem test_withFetchWord :
    ((nextOf (step (State.reset.withFetchWord 32 0x3C021234))).map (fun t => (t.readGpr 2, t.pc))) =
      some (0x12340000, 4) := by decide
theorem test_withFetchWord_break :
    ((nextOf (step (State.reset.withFetchWord 32 0x000001CD))).map (fun t => t.trapRec)) =
      some (some { kind := .breakpoint, victim := 0, bd := false, restart := 0 }) := by decide

/-! ## One step of each instruction, parts B1 to B12 -/

theorem test_add : after (·.readGpr 3) (simple [(1, 0x3FFFFFFF), (2, 0x40000000)] 0x00221820) = some 0x7FFFFFFF := by
  decide
theorem test_add_overflow : faultOf (step (simple [(1, 0x7FFFFFFF), (2, 0x00000001)] 0x00221820)) =
    some (.trapped { kind := .integerOverflow, victim := 0x1000, bd := false, restart := 0x1000 }) := by decide
theorem test_addu : after (·.readGpr 3) (simple [(1, 0x80000000), (2, 0xFFFFFFFF)] 0x00221821) = some 0x7FFFFFFF := by
  decide
theorem test_addi : after (·.readGpr 2) (simple [(1, 0x80008000)] 0x20228000) = some 0x80000000 := by decide
theorem test_addi_overflow : faultOf (step (simple [(1, 0x80000000)] 0x2022FFFF)) =
    some (.trapped { kind := .integerOverflow, victim := 0x1000, bd := false, restart := 0x1000 }) := by decide
theorem test_addiu : after (·.readGpr 2) (simple [] 0x24028000) = some 0xFFFF8000 := by decide
theorem test_sub : after (·.readGpr 3) (simple [(1, 0xFFFFFFFF), (2, 0x80000000)] 0x00221822) = some 0x7FFFFFFF := by
  decide
theorem test_sub_overflow : faultOf (step (simple [(1, 0x00000000), (2, 0x80000000)] 0x00221822)) =
    some (.trapped { kind := .integerOverflow, victim := 0x1000, bd := false, restart := 0x1000 }) := by decide
theorem test_subu : after (·.readGpr 3) (simple [(1, 0x00000005), (2, 0x00000007)] 0x00221823) = some 0xFFFFFFFE := by
  decide
theorem test_slt : after (·.readGpr 3) (simple [(1, 0x80000000), (2, 0x7FFFFFFF)] 0x0022182A) = some 0x00000001 := by
  decide
theorem test_sltu : after (·.readGpr 3) (simple [(1, 0x80000000), (2, 0x7FFFFFFF)] 0x0022182B) = some 0x00000000 := by
  decide
theorem test_slti : after (·.readGpr 2) (simple [(1, 0xFFFF7FFF)] 0x28228000) = some 0x00000001 := by decide
theorem test_sltiu : after (·.readGpr 2) (simple [(1, 0x7FFFFFFF)] 0x2C22FFFF) = some 0x00000001 := by decide
theorem test_and : after (·.readGpr 3) (simple [(1, 0xF0F0F0F0), (2, 0xFF00FF00)] 0x00221824) = some 0xF000F000 := by
  decide
theorem test_or : after (·.readGpr 3) (simple [(1, 0xF0F0F0F0), (2, 0xFF00FF00)] 0x00221825) = some 0xFFF0FFF0 := by
  decide
theorem test_xor : after (·.readGpr 3) (simple [(1, 0xF0F0F0F0), (2, 0xFF00FF00)] 0x00221826) = some 0x0FF00FF0 := by
  decide
theorem test_nor : after (·.readGpr 3) (simple [(1, 0xF0F0F0F0), (2, 0xFF00FF00)] 0x00221827) = some 0x000F000F := by
  decide
theorem test_andi : after (·.readGpr 2) (simple [(1, 0xFFFFFFFF)] 0x30228000) = some 0x00008000 := by decide
theorem test_ori : after (·.readGpr 2) (simple [] 0x34028000) = some 0x00008000 := by decide
theorem test_xori : after (·.readGpr 2) (simple [(1, 0xFFFFFFFF)] 0x3822FFFF) = some 0xFFFF0000 := by decide
theorem test_lui : after (·.readGpr 2) (simple [] 0x3C028000) = some 0x80000000 := by decide
theorem test_sll : after (·.readGpr 3) (simple [(2, 0x12345678)] 0x00021900) = some 0x23456780 := by decide
theorem test_srl : after (·.readGpr 3) (simple [(2, 0x80000001)] 0x00021FC2) = some 0x00000001 := by decide
theorem test_sra : after (·.readGpr 3) (simple [(2, 0x80000001)] 0x00021843) = some 0xC0000000 := by decide
theorem test_sllv : after (·.readGpr 3) (simple [(1, 0x00000021), (2, 0x80000001)] 0x00221804) = some 0x00000002 := by
  decide
theorem test_srlv : after (·.readGpr 3) (simple [(1, 0xFFFFFFE4), (2, 0x80000001)] 0x00221806) = some 0x08000000 := by
  decide
theorem test_srav : after (·.readGpr 3) (simple [(1, 0x00000024), (2, 0x80000001)] 0x00221807) = some 0xF8000000 := by
  decide
theorem test_mult : after (fun t => (t.hi, t.lo)) (simple [(1, 0x80000000), (2, 0xFFFFFFFF)] 0x00220018) =
    some (0x00000000, 0x80000000) := by decide
theorem test_multu : after (fun t => (t.hi, t.lo)) (simple [(1, 0x80000000), (2, 0xFFFFFFFF)] 0x00220019) =
    some (0x7FFFFFFF, 0x80000000) := by decide
theorem test_mfhi : after (·.readGpr 3) { simple [] 0x00001810 with hi := 0x11, lo := 0x22 } = some 0x11 := by decide
theorem test_mflo : after (·.readGpr 3) { simple [] 0x00001812 with hi := 0x11, lo := 0x22 } = some 0x22 := by decide
theorem test_mthi : after (fun t => (t.hi, t.lo)) { simple [(1, 0x33)] 0x00200011 with hi := 0x11, lo := 0x22 } =
    some (0x33, 0x22) := by decide
theorem test_mtlo : after (fun t => (t.hi, t.lo)) { simple [(1, 0x33)] 0x00200013 with hi := 0x11, lo := 0x22 } =
    some (0x11, 0x33) := by decide
theorem test_beq_taken :
    control (simple [(1, 0x80000000), (2, 0x80000000)] 0x10220003) = some (0x1004, 0x1010, true) := by
  decide
theorem test_beq_not_taken :
    control (simple [(1, 0x00000005), (2, 0x00000006)] 0x10220003) = some (0x1004, 0x1008, true) := by
  decide
theorem test_bne_taken :
    control (simple [(1, 0x00000005), (2, 0x00000006)] 0x14220003) = some (0x1004, 0x1010, true) := by
  decide
theorem test_bne_not_taken :
    control (simple [(1, 0x00000005), (2, 0x00000005)] 0x14220003) = some (0x1004, 0x1008, true) := by
  decide
theorem test_bgez_taken : control (simple [(1, 0x00000000)] 0x04210003) = some (0x1004, 0x1010, true) := by decide
theorem test_bgez_not_taken : control (simple [(1, 0x80000000)] 0x04210003) = some (0x1004, 0x1008, true) := by decide
theorem test_bgtz_taken : control (simple [(1, 0x7FFFFFFF)] 0x1C200003) = some (0x1004, 0x1010, true) := by decide
theorem test_bgtz_not_taken : control (simple [(1, 0x00000000)] 0x1C200003) = some (0x1004, 0x1008, true) := by decide
theorem test_blez_taken : control (simple [(1, 0x00000000)] 0x18200003) = some (0x1004, 0x1010, true) := by decide
theorem test_blez_not_taken : control (simple [(1, 0x00000001)] 0x18200003) = some (0x1004, 0x1008, true) := by decide
theorem test_bltz_taken : control (simple [(1, 0xFFFFFFFF)] 0x04200003) = some (0x1004, 0x1010, true) := by decide
theorem test_bltz_not_taken : control (simple [(1, 0x00000000)] 0x04200003) = some (0x1004, 0x1008, true) := by decide
theorem test_bgezal_links_not_taken :
    after (fun t => (t.readGpr 31, t.npc)) (simple [(1, 0xFFFFFFFF)] 0x04310003) = some (0x1008, 0x1008) := by decide
theorem test_bgezal_taken :
    after (fun t => (t.readGpr 31, t.npc)) (machine Config.default 0xFFFFFFF8 [] 0x04110001) =
      some (0x00000000, 0x00000000) := by decide
theorem test_bltzal_links_not_taken :
    after (fun t => (t.readGpr 31, t.npc)) (simple [(1, 0x00000001)] 0x04300003) = some (0x1008, 0x1008) := by decide
theorem test_bltzal_taken :
    after (fun t => (t.readGpr 31, t.npc)) (simple [(1, 0x80000000)] 0x04308000) = some (0x1008, 0xFFFE1004) := by
  decide
theorem test_branch_in_delay_slot :
    refusalOf (step { simple [] 0x08000000 with bd := true }) = some .branchInDelaySlot := by
  decide
theorem test_j : control (machine Config.default 0x0FFFFFFC [] 0x08000100) = some (0x10000000, 0x10000400, true) := by
  decide
theorem test_jal : after (fun t => (t.readGpr 31, t.npc)) (machine Config.default 0x0FFFFFF8 [] 0x0C000100) =
    some (0x10000000, 0x00000400) := by decide
theorem test_jr : control (simple [(1, 0x00002002)] 0x00200008) = some (0x1004, 0x2002, true) := by decide
theorem test_jalr : after (fun t => (t.readGpr 5, t.npc)) (simple [(1, 0x00002000)] 0x00202809) =
    some (0x1008, 0x2000) := by decide
theorem test_jalr_link_discarded : after (fun t => (t.readGpr 0, t.npc)) (simple [(1, 0x00002000)] 0x00200009) =
    some (0, 0x2000) := by decide

/-- A machine whose word at 0x1008 is 0xCAFEBABE and whose `c0[12]` is 0x0000FF01. -/
def loaded (c : Config) (regs : List (RegNum × Word)) (w : Word) : State :=
  let s := machine c 0x1000 regs w
  { s with mem := s.mem.writeWord c.endian 0x1008 0xCAFEBABE, c0 := s.c0.set 12 0x0000FF01 }

theorem test_lw_address_from_old_base :
    after (·.readGpr 1) (loaded Config.default [(1, 0x0000100C)] 0x8C21FFFC) = some 0xCAFEBABE := by decide
theorem test_lw_misaligned :
    refusalOf (step (simple [(1, 0x00001001)] 0x8C220000)) = some .misalignedData := by decide
theorem test_sw : after (fun t => (t.readWord 0x1008, t.stored)) (simple [(1, 0x1000), (2, 0xCAFEBABE)] 0xAC220008) =
    some (some 0xCAFEBABE, [0x1008]) := by decide
theorem test_sw_bytes : after (fun t => (t.readByte 0, t.readByte 3, t.readByte 4))
    (simple [(1, 0x4), (2, 0xCAFEBABE)] 0xAC22FFFC) = some (some 0xCA, some 0xBE, none) := by decide
theorem test_mfc0 : after (·.readGpr 2) (loaded Config.default [] 0x40026000) = some 0x0000FF01 := by decide
theorem test_mtc0 : after (·.readC0 12) (simple [(2, 1)] 0x40826000) = some 1 := by decide
theorem test_lwc0 :
    after (·.readC0 12) (loaded Config.default [(1, 0x1000)] 0xC02C0008) = some 0xCAFEBABE := by decide
theorem test_swc0 : after (·.readWord 0x1008) (loaded Config.default [(1, 0x1000)] 0xE02C0008) =
    some (some 0x0000FF01) := by decide
theorem test_cop0 : refusalOf (step (simple [] 0x40200000)) = some .cop0Operation := by decide
theorem test_cop0_performed : after (fun t => (t.readGpr 0, t.pc)) (machine coprocessor 0x1000 [] 0x403FFFFF) =
    some (0, 0x1004) := by decide
theorem test_break : faultOf (step { machine Config.default 0x104 [] 0x03FFFFCD with bd := true }) =
    some (.trapped { kind := .breakpoint, victim := 0x104, bd := true, restart := 0x100 }) := by decide
theorem test_break_handler : control (machine trapping 0x1C [] 0x0000000D) =
    some (0x80000080, 0x80000084, false) := by decide
theorem test_syscall : faultOf (step { machine Config.default 0x204 [] 0x03FFFFCC with bd := true }) =
    some (.trapped { kind := .systemCall, victim := 0x204, bd := true, restart := 0x200 }) := by decide
theorem test_syscall_handler : after (·.trapRec) (machine trapping 0x18 [] 0x0000004C) =
    some (some { kind := .systemCall, victim := 0x18, bd := false, restart := 0x18 }) := by decide

/-! ## The fetch, part D -/

theorem test_fetch_misaligned : refusalOf (step { simple [] 0 with pc := 2 }) = some .misalignedFetch := by decide
theorem test_fetch_unmapped : refusalOf (step (machine small 0x2000 [] 0)) = some .unmappedFetch := by decide
theorem test_fetch_stored :
    refusalOf (step { simple [] 0 with stored := [0x1000] }) = some .fetchOfStoredWord := by decide
theorem test_fetch_unwritten : refusalOf (step State.reset) = some .unwrittenRead := by decide

/-! ## Witnesses: the hypotheses of the statements can be met, clause by clause -/

theorem test_witness_DecodeThenEncode : decode 0x00221820 = .ok (.add 3 1 2) := by decide

theorem test_witness_DecodeByTheOneMatchingRow :
    (∃ r ∈ opRows, r.matches 0x00221820 = true) ∧ ∀ r ∈ opRows, r.matches 0xFFFFFFFF = false := by decide

theorem test_witness_StepRunsTheDecodedInstruction :
    let s := { simple [] 0x00221820 with interrupts := [none, some 1] }
    s.arrival = none ∧ s.pc.toNat % 4 = 0 ∧ mapped s.cfg s.pc = true ∧ s.pc.toNat ∉ s.stored ∧
    s.readWord s.pc = some 0x00221820 ∧ decode 0x00221820 = .ok (.add 3 1 2) := by decide

theorem test_witness_StepRunsTheDecodedInstruction_coherent :
    let s := { machine forced 0xFFFFFFFC [] 0x00000000 with stored := [0xFFFFFFFC] }
    s.arrival = none ∧ s.pc.toNat % 4 = 0 ∧ mapped s.cfg s.pc = true ∧ s.cfg.smcPolicy = .coherent ∧
    s.readWord s.pc = some 0x00000000 ∧ decode 0x00000000 = .ok (.sll 0 0 0) := by decide

theorem test_witness_StepOfAReservedWord : ∀ p ∈ [ReservedPolicy.refuse, ReservedPolicy.trap],
    let s := machine { trapping with reservedPolicy := p } 0x1000 [] 0xFFFFFFFF
    s.interrupts = [] ∧ s.pc.toNat % 4 = 0 ∧ mapped s.cfg s.pc = true ∧ s.pc.toNat ∉ s.stored ∧
    s.readWord s.pc = some 0xFFFFFFFF ∧ decode 0xFFFFFFFF = .error (.reservedEncoding 0xFFFFFFFF) ∧
    s.cfg.reservedPolicy = p := by decide

theorem test_witness_StepRefusesTheFetch :
    let a := { simple [] 0 with pc := 0xFFFFFFFF }
    let b := machine small 0x2000 [] 0
    let c := { simple [] 0 with stored := [0x1000] }
    let d := { State.launch small [] with pc := 0x1FFC }
    (a.arrival = none ∧ a.pc.toNat % 4 ≠ 0) ∧
    (b.arrival = none ∧ b.pc.toNat % 4 = 0 ∧ mapped b.cfg b.pc = false) ∧
    (c.arrival = none ∧ c.pc.toNat % 4 = 0 ∧ mapped c.cfg c.pc = true ∧ c.cfg.smcPolicy = .refuse ∧
      c.pc.toNat ∈ c.stored) ∧
    (d.arrival = none ∧ d.pc.toNat % 4 = 0 ∧ mapped d.cfg d.pc = true ∧ d.pc.toNat ∉ d.stored ∧
      d.readWord d.pc = none) := by decide

theorem test_witness_InterruptIsTakenBetweenInstructions :
    ({ machine trapping 0x1000 [] 0 with interrupts := [some 3] } : State).interrupts = some 3 :: [] ∧
    control { machine trapping 0x1000 [] 0 with interrupts := [some 3] } = some (0x80000080, 0x80000084, false) := by
  decide

theorem test_witness_AddAddiSubResult :
    let s := simple [(1, 0x80000000), (2, 0xFFFFFFFF), (3, 0x80000001), (4, 0x7FFFFFFE)] 0
    ((s.readGpr 2).toInt + (s.readGpr 3).toInt = -2 ^ 31) ∧
    ((s.readGpr 4).toInt + (1 : BitVec 16).toInt = 2 ^ 31 - 1) ∧
    ((s.readGpr 2).toInt - (s.readGpr 1).toInt = 2 ^ 31 - 1) := by decide

theorem test_witness_OverflowRaises :
    let s := machine trapping 0x1000 [(1, 0x80000000), (2, 0xFFFFFFFF), (3, 0x7FFFFFFF), (4, 1)] 0
    (s.readGpr 1).toInt + (s.readGpr 2).toInt < -2 ^ 31 ∧ 2 ^ 31 ≤ (s.readGpr 3).toInt + (1 : BitVec 16).toInt ∧
    (s.readGpr 1).toInt - (s.readGpr 4).toInt < -2 ^ 31 ∧ 2 ^ 31 ≤ (s.readGpr 3).toInt - (s.readGpr 2).toInt ∧
    s.cfg.trapEntry = .handler 0x80000080 := by decide

theorem test_witness_ShiftResult : 31 = ((simple [(1, 0xFFFFFFFF)] 0).readGpr 1).toNat % 32 ∧
    0 = ((simple [(1, 0x00000020)] 0).readGpr 1).toNat % 32 := by decide

theorem test_witness_ShiftsAreArithmetic :
    (3 : RegNum) ≠ 0 ∧ 31 = ((simple [(1, 0xFFFFFFFF)] 0).readGpr 1).toNat % 32 := by
  decide

theorem test_witness_ConditionalBranchResult :
    (simple [] 0).bd = false ∧
    (0xFFFE1004 : Word) = (simple [] 0).pc + 4 + ((0x8000 : BitVec 16) ++ 0#2).signExtend 32 ∧
    (0x00021000 : Word) = (simple [] 0).pc + 4 + ((0x7FFF : BitVec 16) ++ 0#2).signExtend 32 := by decide

theorem test_witness_BranchAndLinkResult :
    (simple [] 0).bd = false ∧ (30 : RegNum) ≠ 31 ∧
    (0x00001010 : Word) = (simple [] 0).pc + 4 + ((0x0003 : BitVec 16) ++ 0#2).signExtend 32 := by decide

theorem test_witness_BranchAndLinkResult_no_link :
    after (·.readGpr 31) (machine { Config.default with linkOnNotTaken := false } 0x1000
      [(1, 0xFFFFFFFF), (31, 7)] 0x04310003) = some 7 := by decide

theorem test_witness_BranchInDelaySlotIsRefused :
    isBranchOrJump (.jalr 1 1) = true ∧ ({ simple [] 0 with bd := true } : State).bd = true := by decide

theorem test_witness_BranchTargetArithmetic : (0xFFFFFFFC : Word).toNat % 4 = 0 := by decide

theorem test_witness_JumpResult :
    (simple [(1, 0x2002)] 0).bd = false ∧ (simple [(1, 0x2002)] 0).cfg.misalignedFetch = .refuse ∧
    (machine forced 0x1000 [(1, 0x2003)] 0).cfg.misalignedFetch = .forceAlign ∧
    (0x2000 : Word).toNat = ((machine forced 0x1000 [(1, 0x2003)] 0).readGpr 1).toNat / 4 * 4 ∧ (1 : RegNum) ≠ 0 := by
  decide

/-- A branch that is taken, and a no-operation in its delay slot. -/
theorem test_witness_DelaySlotThenTarget :
    let s := simple [(1, 5), (2, 5)] 0
    Sound s ∧ isBranchOrJump (.beq 1 2 3) = true ∧ taken s (.beq 1 2 3) ∧ ¬taken s (.bne 1 2 3) ∧
    isBranchOrJump (.sll 0 0 0) = false ∧ exceptionOf (.sll 0 0 0) = none ∧ isOpenOperation s (.sll 0 0 0) = false ∧
    (nextOf (exec (.beq 1 2 3) s)).isSome = true ∧ (nextOf (exec (.bne 1 2 3) s)).isSome = true ∧
    ((nextOf (exec (.beq 1 2 3) s)).bind (fun t => nextOf (exec (.sll 0 0 0) t))).map (·.pc) = some 0x1010 ∧
    ((nextOf (exec (.bne 1 2 3) s)).bind (fun t => nextOf (exec (.sll 0 0 0) t))).map (·.pc) = some 0x1008 := by
  unfold Sound taken; decide

theorem test_witness_BranchesAreReexecutable :
    isBranchOrJump (.jalr 31 1) = true ∧
    (nextOf (exec (.jalr 31 1) (simple [(1, 0x2000)] 0))).isSome = true := by decide

/-- A trap in the delay slot of JAL. -/
theorem test_witness_TrapInDelaySlotRestartsAtTheBranch :
    let s := machine trapping 0x1000 [] 0
    Sound s ∧ isBranchOrJump (.jal 8) = true ∧ (nextOf (exec (.jal 8) s)).isSome = true ∧
    ((nextOf (exec (.jal 8) s)).bind (fun t => nextOf (takeException t .breakpoint))).map (·.trapRec) =
      some (some { kind := .breakpoint, victim := 0x1004, bd := true, restart := 0x1000 }) := by
  unfold Sound; decide

theorem test_witness_ReadAfterWrite :
    (0xFFFFFFFC : Word).toNat % 4 = 0 ∧ (0x00000000 : Word).toNat % 4 = 0 ∧
    (0xFFFFFFFB < (0xFFFFFFFC : Word).toNat ∧ (0x00000000 : Word).toNat + 4 ≤ 4) := by decide

theorem test_witness_DataAddressChecks :
    ((0x1FFC : Word).toNat % 4 = 0 ∧ mapped small 0x1FFC = true) ∧ ((0x2000 : Word).toNat % 4 = 0 ∧
    mapped small 0x2000 = false) ∧
    ((0x1001 : Word).toNat % 4 ≠ 0 ∧ small.misalignedData = .refuse) ∧
    ((0x1FFF : Word).toNat % 4 ≠ 0 ∧ forced.misalignedData = .forceAlign) := by decide

theorem test_witness_FailedAccessIsRefused :
    dataAddress small (effectiveAddress ((machine small 0x1000 [(1, 0x2000)] 0).readGpr 1) 0) = .error .unmappedAccess ∧
    dataAddress small (effectiveAddress ((machine small 0x1000 [(1, 0x2000)] 0).readGpr 1) 0xFFFF) =
      .error .misalignedData ∧
    dataAddress small (effectiveAddress ((machine small 0x1000 [(1, 0x2000)] 0).readGpr 1) 0xFFFC) = .ok 0x1FFC ∧
    (machine small 0x1000 [(1, 0x2000)] 0).readWord 0x1FFC = none := by decide

theorem test_witness_LoadWordResult :
    let s := loaded Config.default [(1, 0x100C)] 0
    dataAddress s.cfg (effectiveAddress (s.readGpr 1) 0xFFFC) = .ok 0x1008 ∧ s.readWord 0x1008 = some 0xCAFEBABE := by
  decide

theorem test_witness_LoadWordResult_forced :
    let s := loaded forced [(1, 0x100C)] 0
    dataAddress s.cfg (effectiveAddress (s.readGpr 1) 0xFFFF) = .ok 0x1008 ∧ s.readWord 0x1008 = some 0xCAFEBABE := by
  decide

theorem test_witness_StoreWordResult :
    let s := simple [(1, 0x00000000)] 0
    dataAddress s.cfg (effectiveAddress (s.readGpr 1) 0xFFFC) = .ok 0xFFFFFFFC := by decide

/-- The three ways to store. -/
theorem test_witness_StoreThenLoad :
    let s := simple [(1, 0x1000), (2, 0xCAFEBABE)] 0
    let c := machine custom 0x1000 [(1, 0x1000)] 0
    (nextOf (exec (.sw 2 8 1) s)).isSome = true ∧ (nextOf (exec (.swc0 2 8 1) s)).isSome = true ∧
    s.cfg.c0Access = .plain ∧ (nextOf (exec (.swc0 2 8 1) c)).isSome = true ∧ c.cfg.c0Access = .custom ∧
    dataAddress s.cfg (effectiveAddress (s.readGpr 1) 8) = .ok 0x1008 ∧
    dataAddress c.cfg (effectiveAddress (c.readGpr 1) 8) = .ok 0x1008 := by decide

theorem test_witness_MoveCoprocessorResult : (simple [] 0).cfg.c0Access = .plain := by decide

theorem test_witness_CoprocessorLoadStoreResult :
    let s := loaded Config.default [(1, 0x1000)] 0
    s.cfg.c0Access = .plain ∧ dataAddress s.cfg (effectiveAddress (s.readGpr 1) 8) = .ok 0x1008 ∧
    s.readWord 0x1008 = some 0xCAFEBABE := by decide

theorem test_witness_CoprocessorAccessFunctions :
    let s := loaded coprocessor [(1, 0x1000)] 0
    s.cfg.c0Access = .custom ∧ dataAddress s.cfg (effectiveAddress (s.readGpr 1) 8) = .ok 0x1008 ∧
    s.readWord 0x1008 = some 0xCAFEBABE := by decide

theorem test_witness_CoprocessorOperation :
    (simple [] 0).cfg.cop0Op = .refuse ∧ (machine coprocessor 0x1000 [] 0).cfg.cop0Op = .perform ∧
    (machine custom 0x1000 [] 0).cfg.cop0Op = .custom := by decide

/-- An operation that writes the last word of `small` twice, a word outside it once, and resumes in a delay slot. -/
theorem test_witness_CoprocessorOperation_completes :
    let e : Cop0Effect :=
      { gpr := Vector.replicate 32 9, hi := 1, lo := 2, c0 := Vector.replicate 32 3,
        writes := [(0x1FFC, 4), (0x2000, 5), (0x1FFC, 6)], control := .goToSlot 0x1104 0x1200 }
    let t := (machine small 0x1000 [] 0).applyCop0 e
    [t.readGpr 0, t.readGpr 31, t.hi, t.lo, t.readC0 7] = [0, 9, 1, 2, 3] ∧
    t.readWord 0x1FFC = some 6 ∧ t.readWord 0x2000 = none ∧ t.stored = [0x1FFC] ∧
    t.pc = 0x1104 ∧ t.npc = 0x1200 ∧ t.bd = true := by decide

theorem test_witness_BreakAndSyscallReachTheHandler :
    let s := machine trapping 0x1000 [] 0
    let c := machine custom 0x1000 [] 0
    HandlerAt s (recordOf .breakpoint s) 0x80000080 ∧ HandlerAt s (recordOf .systemCall s) 0x80000080 ∧
    HandlerAt c (recordOf .breakpoint c) (Config.trapEntryPc c (recordOf .breakpoint c)) ∧
    HandlerAt c (recordOf .systemCall c) (Config.trapEntryPc c (recordOf .systemCall c)) :=
  ⟨.inl rfl, .inl rfl, .inr ⟨rfl, rfl⟩, .inr ⟨rfl, rfl⟩⟩

theorem test_witness_TakingAnException :
    let c := machine custom 0x1000 [] 0
    (simple [] 0).cfg.trapEntry = .terminal ∧ (machine trapping 0x1000 [] 0).cfg.trapEntry = .handler 0x80000080 ∧
    HandlerAt c (recordOf .breakpoint c) (Config.trapEntryPc c (recordOf .breakpoint c)) :=
  ⟨rfl, rfl, .inr ⟨rfl, rfl⟩⟩

theorem test_witness_OnlyFiveInstructionsRaise :
    let s := simple [(1, 0x7FFFFFFF), (2, 1), (3, 0x7FFFFFFE)] 0
    exceptionOf (.addu 3 1 2) = none ∧ isOpenOperation s (.addu 3 1 2) = false ∧
    isOpenOperation s (.cop0 7) = false ∧ exceptionOf (.add 3 1 2) = some .integerOverflow ∧
    raisesIn s (.add 3 1 2) ∧ ¬raisesIn s (.add 3 3 2) ∧ raisesIn s (.brk 7) ∧
    faultOf (exec (.add 3 1 2) s) = some (.trapped (s.excRecord .integerOverflow)) ∧
    (nextOf (exec (.add 3 3 2) s)).isSome = true ∧ (nextOf (exec (.addu 3 1 2) s)).isSome = true := by
  unfold raisesIn outsideSigned; decide

theorem test_witness_StepKeepsTheInvariant :
    Sound (simple [(1, 0x1000), (2, 7)] 0xAC220008) ∧
    (nextOf (step (simple [(1, 0x1000), (2, 7)] 0xAC220008))).isSome = true := by
  unfold Sound; decide

theorem test_witness_InvariantAtLaunch :
    Memory.wf (Memory.writeWord [] .big 0xFFFFFFFC 5) ∧
    Memory.inSpace (Memory.writeWord [] .big 0xFFFFFFFC 5) := by decide

theorem test_witness_PcStaysAligned :
    let s := machine forced 0x1000 [(1, 0x2003)] 0x00200008
    s.cfg.misalignedFetch = .forceAlign ∧ s.cfg.trapEntry = .handler 0x80000080 ∧ (0x80000080 : Word).toNat % 4 = 0 ∧
    s.cfg.trapEntry ≠ .custom ∧ AlignedPc s ∧ control s = some (0x1004, 0x2000, true) := by
  unfold AlignedPc; decide

theorem test_witness_WhoWritesWhat :
    let s := simple [(1, 0x7FFFFFFE), (2, 1)] 0
    storesToMemory (.addu 3 1 2) = false ∧ writesHi (.mtlo 1) = false ∧ writesLo (.mthi 1) = false ∧
    isOpenOperation s (.addu 3 1 2) = false ∧ writesC0 (.add 3 1 2) = false ∧ ¬raisesIn s (.add 3 1 2) ∧
    (nextOf (exec (.addu 3 1 2) s)).isSome = true ∧ (nextOf (exec (.add 3 1 2) s)).isSome = true := by
  unfold raisesIn outsideSigned; decide

theorem test_witness_WhichGprIsWritten :
    gprWritten (.addu 3 1 2) ≠ some 4 ∧ gprWritten (.jal 8) = some 31 := by decide

/-- The same word in memory in the two byte orders. -/
theorem test_witness_ByteOrderIsNotObservable :
    let s := machine Config.default 0 [] 0x3C021234
    let t := machine { Config.default with endian := .little } 0 [] 0x3C021234
    SameButByteOrder s t ∧ s.cfg.trapEntry = .terminal ∧ s.cfg.cop0Op = .refuse ∧ s.mem ≠ t.mem := by
  refine ⟨⟨rfl, fun a ha => ?_⟩, by decide⟩
  by_cases h : a = 0
  · subst h; decide
  · have h0 : a.toNat ≠ 0 := fun e => h (BitVec.eq_of_toNat_eq e)
    have hs : State.readWord (machine Config.default 0 [] 0x3C021234) a = none := by
      show Memory.readWord (Memory.writeWord [] .big 0 0x3C021234) .big a = none
      unfold Memory.readWord
      rw [Memory.get_writeWord_outside _ _ _ _ (Or.inr (show (0 : Word).toNat + 4 ≤ a.toNat by simp; omega))]
      rfl
    have ht : State.readWord (machine { Config.default with endian := .little } 0 [] 0x3C021234) a = none := by
      show Memory.readWord (Memory.writeWord [] .little 0 0x3C021234) .little a = none
      unfold Memory.readWord
      rw [Memory.get_writeWord_outside _ _ _ _ (Or.inr (show (0 : Word).toNat + 4 ≤ a.toNat by simp; omega))]
      rfl
    exact ht.trans hs.symm

theorem test_witness_DestinationZeroIsANop :
    gprWritten (.lw 0 0 1) = some 0 ∧ isBranchOrJump (.lw 0 0 1) = false ∧ exceptionOf (.lw 0 0 1) = none ∧
    (nextOf (exec (.lw 0 8 1) (loaded Config.default [(1, 0x1000)] 0))).isSome = true := by decide

theorem test_witness_WhyAnInstructionIsRefused :
    refusalOf (exec (.j 0) { simple [] 0 with bd := true }) = some .branchInDelaySlot ∧
    refusalOf (exec (.jalr 1 1) (simple [] 0)) = some .unpredictable ∧
    refusalOf (exec (.cop0 0) (simple [] 0)) = some .cop0Operation ∧
    refusalOf (exec (.sw 2 1 1) (simple [] 0)) = some .misalignedData ∧
    refusalOf (exec (.swc0 2 0 1) (machine small 0x1000 [] 0)) = some .unmappedAccess ∧
    refusalOf (exec (.lwc0 2 0 1) (simple [] 0)) = some .unwrittenRead := by decide

theorem test_witness_WhichGprIsWritten_next :
    (nextOf (exec (.addu 3 1 2) (simple [(4, 9)] 0))).map (·.readGpr 4) = some 9 := by decide

theorem test_witness_HowThePcAdvances :
    let s := machine trapping 0x1000 [(1, 0x7FFFFFFF), (2, 1)] 0
    (nextOf (exec (.beq 1 1 3) s)).map (·.npc) = some 0x1010 ∧ taken s (.beq 1 1 3) ∧
    (nextOf (exec (.beq 1 2 3) s)).map (·.npc) = some 0x1008 ∧ ¬taken s (.beq 1 2 3) ∧
    (nextOf (exec (.addu 3 1 2) s)).map (·.npc) = some 0x1008 ∧ ¬raisesIn s (.addu 3 1 2) ∧
    isOpenOperation s (.addu 3 1 2) = false ∧
    (nextOf (exec (.add 3 1 2) s)).map (·.npc) = some 0x80000084 ∧ raisesIn s (.add 3 1 2) := by
  unfold taken raisesIn outsideSigned; decide

theorem test_witness_UnpredictableFormsAreRefused : (simple [(31, 7)] 0).bd = false := by decide

theorem test_witness_RunKeepsTheInvariant : Sound (simple [] 0) := by
  unfold Sound; decide

/-- A run to a predicate on the state (R368): two steps, then `HALT` holds. -/
theorem test_run_halts :
    (runUntil (fun s => s.pc == 0x1004) 5 (simple [] 0x00000000)).state.pc = 0x1004 ∧
    NoInterrupts (simple [] 0x00000000) := by
  unfold NoInterrupts; decide

end Sys2Proof.Tests
end

/-! PROOFS. The instructions that write one general register and go on: what they leave unchanged, proved once
for `State.writeAndAdvance`, and the values LUI and the shifts write (spec/30_encoding.md rules R87, R91). -/

namespace Sys2Proof.Machine

/-! ## Ending a step by writing one general register -/

/-- The frame of every instruction that ends in `State.writeAndAdvance` (R12, R21, R35 step 9). -/
theorem writesGprOnly_writeGpr_advance (s : State) (r : RegNum) (v : Word) :
    WritesGprOnly r v s (s.writeGpr r v).advance := by
  have gprs : GprUpdate r v s (s.writeGpr r v).advance := fun q => by
    rw [State.readGpr_advance, State.readGpr_writeGpr]
  have special : SameSpecial s (s.writeGpr r v).advance := by simp [SameSpecial]
  have memory : SameMemory s (s.writeGpr r v).advance := by simp [SameMemory, State.readByte]
  have model : SameModel s (s.writeGpr r v).advance := by simp [SameModel]
  have goesOn : GoesOn s (s.writeGpr r v).advance := by simp [GoesOn]
  exact ⟨gprs, special, memory, model, goesOn⟩

/-- An instruction whose meaning is `State.writeAndAdvance` completes, writes its value and nothing else, and what
holds of the value holds of what it writes. -/
theorem exists_writesGprOnly_of_exec {i : Instr} {s : State} {r : RegNum} {v : Word} {P : Word → Prop}
    (h : exec i s = s.writeAndAdvance r v) (hv : P v) :
    ∃ t w, exec i s = .next t ∧ WritesGprOnly r w s t ∧ P w :=
  ⟨(s.writeGpr r v).advance, v, h, writesGprOnly_writeGpr_advance s r v, hv⟩

/-! ## LUI -/

theorem exec_lui (rt : RegNum) (imm : BitVec 16) (s : State) :
    exec (.lui rt imm) s = s.writeAndAdvance rt (upperImm imm) := rfl

theorem upperImm_toNat (imm : BitVec 16) : (upperImm imm).toNat = imm.toNat * 2 ^ 16 := by
  rw [upperImm, BitVec.toNat_append]
  simp [Nat.shiftLeft_eq]

theorem upperImm_getLsbD (imm : BitVec 16) (i : Nat) :
    (upperImm imm).getLsbD i = (decide (16 ≤ i) && imm.getLsbD (i - 16)) := by
  rw [upperImm, BitVec.getLsbD_append]
  by_cases h : i < 16
  · simp [h]
  · simp [h, Nat.le_of_not_lt h]

/-- Settles O17: LUI writes `upperImm`. -/
theorem luiResult : Obligations.LuiResult := fun rt imm s =>
  exists_writesGprOnly_of_exec (exec_lui rt imm s) ⟨upperImm_toNat imm, fun i _ => upperImm_getLsbD imm i⟩

/-! ## The shifts: the value each writes -/

theorem exec_sll (rd rt : RegNum) (sa : BitVec 5) (s : State) :
    exec (.sll rd rt sa) s = s.writeAndAdvance rd (s.readGpr rt <<< sa) := rfl

theorem exec_srl (rd rt : RegNum) (sa : BitVec 5) (s : State) :
    exec (.srl rd rt sa) s = s.writeAndAdvance rd (s.readGpr rt >>> sa) := rfl

theorem exec_sra (rd rt : RegNum) (sa : BitVec 5) (s : State) :
    exec (.sra rd rt sa) s = s.writeAndAdvance rd ((s.readGpr rt).sshiftRight' sa) := rfl

theorem exec_sllv (rd rt rs : RegNum) (s : State) :
    exec (.sllv rd rt rs) s = s.writeAndAdvance rd (s.readGpr rt <<< shiftAmount (s.readGpr rs)) := rfl

theorem exec_srlv (rd rt rs : RegNum) (s : State) :
    exec (.srlv rd rt rs) s = s.writeAndAdvance rd (s.readGpr rt >>> shiftAmount (s.readGpr rs)) := rfl

theorem exec_srav (rd rt rs : RegNum) (s : State) :
    exec (.srav rd rt rs) s = s.writeAndAdvance rd ((s.readGpr rt).sshiftRight' (shiftAmount (s.readGpr rs))) := rfl

/-- The amount of a variable shift is the value of the register modulo 32 (R91). -/
theorem shiftAmount_toNat (v : Word) : (shiftAmount v).toNat = v.toNat % 32 := by
  simp [shiftAmount, field, BitVec.extractLsb'_toNat]

/-! ## The shifts: the bits of the value (R160) -/

theorem getLsbD_shiftLeft_amount (v : Word) (a : BitVec 5) {i : Nat} (hi : i < 32) :
    (v <<< a).getLsbD i = (decide (a.toNat ≤ i) && v.getLsbD (i - a.toNat)) := by
  simp only [BitVec.getLsbD_shiftLeft', ← decide_not, Nat.not_lt, hi, decide_true, Bool.true_and]

/-- A bit taken from above bit 31 is a zero. -/
theorem getLsbD_ushiftRight_amount (v : Word) (a : BitVec 5) (i : Nat) :
    (v >>> a).getLsbD i = (decide (i + a.toNat ≤ 31) && v.getLsbD (i + a.toNat)) := by
  rw [BitVec.ushiftRight_eq', BitVec.getLsbD_ushiftRight, Nat.add_comm]
  by_cases h : i + a.toNat ≤ 31
  · simp [h]
  · simp [h, BitVec.getLsbD_of_ge v _ (Nat.lt_of_not_le h)]

/-- A bit taken from above bit 31 is the sign bit. -/
theorem getLsbD_sshiftRight_amount (v : Word) (a : BitVec 5) {i : Nat} (hi : i < 32) :
    (v.sshiftRight' a).getLsbD i = if i + a.toNat ≤ 31 then v.getLsbD (i + a.toNat) else v.getLsbD 31 := by
  rw [BitVec.sshiftRight_eq', BitVec.getLsbD_sshiftRight, BitVec.msb_eq_getLsbD_last, Nat.add_comm]
  simp [hi, Nat.lt_succ_iff]

/-- Settles O18: each bit law holds for any five-bit amount, so once for `sa` and once for `shiftAmount`. -/
theorem shiftResult : Obligations.ShiftResult := by
  rintro rd rt rs sa s n rfl
  rw [← shiftAmount_toNat]
  refine ⟨?sll, ?srl, ?sra, ?sllv, ?srlv, ?srav⟩
  case sll => exact exists_writesGprOnly_of_exec (exec_sll ..) fun _ hi => getLsbD_shiftLeft_amount _ _ hi
  case srl => exact exists_writesGprOnly_of_exec (exec_srl ..) fun i _ => getLsbD_ushiftRight_amount _ _ i
  case sra => exact exists_writesGprOnly_of_exec (exec_sra ..) fun _ hi => getLsbD_sshiftRight_amount _ _ hi
  case sllv => exact exists_writesGprOnly_of_exec (exec_sllv ..) fun _ hi => getLsbD_shiftLeft_amount _ _ hi
  case srlv => exact exists_writesGprOnly_of_exec (exec_srlv ..) fun i _ => getLsbD_ushiftRight_amount _ _ i
  case srav => exact exists_writesGprOnly_of_exec (exec_srav ..) fun _ hi => getLsbD_sshiftRight_amount _ _ hi

end Sys2Proof.Machine

/-! PROOFS. The logical instructions: the value each writes and its bits (spec/41_logical.md rules R140 to R147). -/

namespace Sys2Proof.Machine

/-! ## The logical instructions: the value each writes -/

theorem exec_and (rd rs rt : RegNum) (s : State) :
    exec (.and rd rs rt) s = s.writeAndAdvance rd (s.readGpr rs &&& s.readGpr rt) := rfl

theorem exec_or (rd rs rt : RegNum) (s : State) :
    exec (.or rd rs rt) s = s.writeAndAdvance rd (s.readGpr rs ||| s.readGpr rt) := rfl

theorem exec_xor (rd rs rt : RegNum) (s : State) :
    exec (.xor rd rs rt) s = s.writeAndAdvance rd (s.readGpr rs ^^^ s.readGpr rt) := rfl

theorem exec_nor (rd rs rt : RegNum) (s : State) :
    exec (.nor rd rs rt) s = s.writeAndAdvance rd (~~~(s.readGpr rs ||| s.readGpr rt)) := rfl

theorem exec_andi (rt rs : RegNum) (imm : BitVec 16) (s : State) :
    exec (.andi rt rs imm) s = s.writeAndAdvance rt (s.readGpr rs &&& zeroImm imm) := rfl

theorem exec_ori (rt rs : RegNum) (imm : BitVec 16) (s : State) :
    exec (.ori rt rs imm) s = s.writeAndAdvance rt (s.readGpr rs ||| zeroImm imm) := rfl

theorem exec_xori (rt rs : RegNum) (imm : BitVec 16) (s : State) :
    exec (.xori rt rs imm) s = s.writeAndAdvance rt (s.readGpr rs ^^^ zeroImm imm) := rfl

/-! ## The logical instructions: the bits of the value -/

/-- Bits 31..16 of a zero-extended immediate are zeros (R86). -/
theorem zeroImm_getLsbD (imm : BitVec 16) (i : Nat) :
    (zeroImm imm).getLsbD i = (decide (i < 16) && imm.getLsbD i) := by
  rw [zeroImm, BitVec.getLsbD_setWidth]
  by_cases h : i < 16
  · simp [h, Nat.lt_trans h]
  · simp [h, BitVec.getLsbD_of_ge imm i (Nat.le_of_not_lt h)]

/-- The complement is the one operation whose bit law needs the position to be inside the word. -/
theorem getLsbD_nor (v w : Word) {i : Nat} (hi : i < 32) :
    (~~~(v ||| w)).getLsbD i = !(v.getLsbD i || w.getLsbD i) := by
  rw [BitVec.getLsbD_not, BitVec.getLsbD_or, decide_eq_true hi, Bool.true_and]

/-- Settles O16: the register forms by the bit law of their operation, the immediate forms by the same law and the
bits of `zeroImm`. -/
theorem logicalResult : Obligations.LogicalResult := by
  intro rd rs rt imm s
  refine ⟨?and, ?or, ?xor, ?nor, ?andi, ?ori, ?xori⟩
  case and => exact exists_writesGprOnly_of_exec (exec_and ..) fun _ _ => BitVec.getLsbD_and
  case or => exact exists_writesGprOnly_of_exec (exec_or ..) fun _ _ => BitVec.getLsbD_or
  case xor => exact exists_writesGprOnly_of_exec (exec_xor ..) fun _ _ => BitVec.getLsbD_xor
  case nor => exact exists_writesGprOnly_of_exec (exec_nor ..) fun _ hi => getLsbD_nor _ _ hi
  case andi =>
    exact exists_writesGprOnly_of_exec (exec_andi ..) fun i _ => by rw [BitVec.getLsbD_and, zeroImm_getLsbD]
  case ori =>
    exact exists_writesGprOnly_of_exec (exec_ori ..) fun i _ => by rw [BitVec.getLsbD_or, zeroImm_getLsbD]
  case xori =>
    exact exists_writesGprOnly_of_exec (exec_xori ..) fun i _ => by rw [BitVec.getLsbD_xor, zeroImm_getLsbD]

end Sys2Proof.Machine

/-! PROOFS. The branch target as an integer, and the distances it reaches (spec/44_branch.md rules R200, R212). -/

namespace Sys2Proof.Machine

/-! ## The branch offset -/

/-- `offset || 00` is four times the offset as a signed number, and the sign extension of R88 keeps that number. -/
theorem branchOffset_toInt (o : BitVec 16) : (branchOffset o).toInt = 4 * o.toInt := by
  rw [branchOffset, BitVec.toInt_signExtend_of_le (by decide), BitVec.toInt_append]
  simp

theorem branchOffset_eq_ofInt (o : BitVec 16) : branchOffset o = BitVec.ofInt 32 (4 * o.toInt) := by
  rw [← branchOffset_toInt, BitVec.ofInt_toInt]

/-- The range of a 16-bit signed offset, in bytes. -/
theorem scaledOffset_range (o : BitVec 16) : -131072 ≤ 4 * o.toInt ∧ 4 * o.toInt ≤ 131068 := by
  have lower := BitVec.le_toInt o
  have upper := BitVec.toInt_lt (x := o)
  omega

/-- Every multiple of 4 in the range is a scaled offset. -/
theorem exists_scaledOffset {d : Int} (lower : -131072 ≤ d) (upper : d ≤ 131068) (multiple : d % 4 = 0) :
    ∃ o : BitVec 16, 4 * o.toInt = d := by
  have fits : (BitVec.ofInt 16 (d / 4)).toInt = d / 4 :=
    BitVec.toInt_ofInt_eq_self (by decide) (by omega) (by omega)
  exact ⟨BitVec.ofInt 16 (d / 4), by omega⟩

/-! ## The target -/

theorem delaySlot_eq_ofInt (pc : Word) : delaySlot pc = BitVec.ofInt 32 (pc.toNat + 4) := by
  rw [BitVec.ofInt_add, BitVec.ofInt_natCast, BitVec.ofNat_toNat, BitVec.setWidth_eq]
  rfl

theorem branchTarget_eq_ofInt (pc : Word) (o : BitVec 16) :
    branchTarget pc o = BitVec.ofInt 32 (pc.toNat + 4 + 4 * o.toInt) := by
  rw [branchTarget, delaySlot_eq_ofInt, branchOffset_eq_ofInt, ← BitVec.ofInt_add]

/-- 4 divides 2^32, so reducing the sum modulo 2^32 keeps it a multiple of 4. -/
theorem branchTarget_multiple_of_four {pc : Word} (h : pc.toNat % 4 = 0) (o : BitVec 16) :
    (branchTarget pc o).toNat % 4 = 0 := by
  rw [branchTarget_eq_ofInt, BitVec.toNat_ofInt]
  omega

/-- Settles O27: the target as an integer modulo 2^32, then the bounds of the scaled offset and its surjectivity onto
the multiples of 4 between them. -/
theorem branchTargetArithmetic : Obligations.BranchTargetArithmetic := by
  intro pc o
  obtain ⟨lower, upper⟩ := scaledOffset_range o
  refine ⟨branchTarget_eq_ofInt pc o, lower, upper, fun h => branchTarget_multiple_of_four h o, ?reached⟩
  case reached =>
    intro d hlower hupper hmultiple
    obtain ⟨o', ho'⟩ := exists_scaledOffset hlower hupper hmultiple
    exact ⟨o', by rw [branchTarget_eq_ofInt, ho']⟩

end Sys2Proof.Machine

/-! PROOFS. The target of J and JAL as a number, and the words it reaches (spec/45_jump.md rule R230). -/

namespace Sys2Proof.Machine

/-! ## Fields and concatenation as numbers -/

theorem field_toNat (w : Word) (lo n : Nat) : (field w lo n).toNat = w.toNat / 2 ^ lo % 2 ^ n := by
  rw [field, BitVec.extractLsb'_toNat, Nat.shiftRight_eq_div_pow]

/-- The bits of the two parts do not overlap, so the concatenation is a sum. -/
theorem append_toNat {m n : Nat} (hi : BitVec m) (lo : BitVec n) :
    (hi ++ lo).toNat = hi.toNat * 2 ^ n + lo.toNat := by
  rw [BitVec.toNat_append, ← Nat.shiftLeft_add_eq_or_of_lt lo.isLt, Nat.shiftLeft_eq]

/-! ## The region of the delay slot -/

theorem delaySlot_toNat (pc : Word) : (delaySlot pc).toNat = (pc.toNat + 4) % 2 ^ 32 :=
  BitVec.toNat_add pc 4

/-- The target is the start of the delay slot's region plus four times the index. -/
theorem regionTarget_toNat (pc : Word) (x : BitVec 26) :
    (regionTarget pc x).toNat = (delaySlot pc).toNat / 2 ^ 28 * 2 ^ 28 + 4 * x.toNat := by
  have slot_lt := (delaySlot pc).isLt
  have split : (regionTarget pc x).toNat =
      ((delaySlot pc).toNat / 2 ^ 28 % 2 ^ 4 * 2 ^ 26 + x.toNat) * 2 ^ 2 + 0 := by
    rw [regionTarget, append_toNat, append_toNat, field_toNat, BitVec.toNat_zero]
  omega

/-- Four times a 26-bit index stays below the size of a region. -/
theorem regionTarget_region (pc : Word) (x : BitVec 26) :
    (regionTarget pc x).toNat / 2 ^ 28 = (delaySlot pc).toNat / 2 ^ 28 := by
  have index_lt := x.isLt
  rw [regionTarget_toNat]
  omega

theorem regionTarget_multiple_of_four (pc : Word) (x : BitVec 26) : (regionTarget pc x).toNat % 4 = 0 := by
  rw [regionTarget_toNat]
  omega

/-- Bits 27 to 2 of a word of the region are the index that reaches it. -/
theorem regionTarget_field {pc a : Word} (multiple : a.toNat % 4 = 0)
    (region : a.toNat / 2 ^ 28 = (delaySlot pc).toNat / 2 ^ 28) : regionTarget pc (field a 2 26) = a := by
  apply BitVec.eq_of_toNat_eq
  rw [regionTarget_toNat, field_toNat, ← region]
  omega

/-- Settles O31: the target is the region's start plus four times the index, and the index of a word of the region
is the field of its bits 27 to 2. -/
theorem regionTargetArithmetic : Obligations.RegionTargetArithmetic := by
  intro pc x
  refine ⟨?value, regionTarget_region pc x, regionTarget_multiple_of_four pc x, ?reached⟩
  case value => rw [regionTarget_toNat, delaySlot_toNat]
  case reached => exact fun a multiple region => ⟨field a 2 26, regionTarget_field multiple region⟩

end Sys2Proof.Machine

/-! PROOFS. The decoder and the encoder are inverse to each other (spec/30_encoding.md sections 1 to 3): at most one
row matches a word, and a word is rebuilt from the fields its row reads. -/

namespace Sys2Proof

/-! ## At most one row matches a word (R97) -/

/-- A word that matches two rows has, at the bits both fix, the value of each. -/
theorem OpRow.common_bits_of_matches {r q : OpRow} {w : Word} (hr : r.matches w = true) (hq : q.matches w = true) :
    r.value &&& q.mask = q.value &&& r.mask := by
  simp only [OpRow.matches, beq_iff_eq] at hr hq
  rw [← hr, ← hq, BitVec.and_assoc, BitVec.and_assoc, BitVec.and_comm r.mask]

/-- Two rows that fix a common bit differently. -/
def OpRow.Disjoint (r q : OpRow) : Prop := r.value &&& q.mask ≠ q.value &&& r.mask

theorem OpRow.Disjoint.not_matches_both {r q : OpRow} (h : r.Disjoint q) (w : Word) :
    ¬(r.matches w = true ∧ q.matches w = true) :=
  fun ⟨hr, hq⟩ => h (OpRow.common_bits_of_matches hr hq)

theorem opRows_pairwise_disjoint : opRows.Pairwise OpRow.Disjoint := by
  unfold OpRow.Disjoint
  decide

/-- The row a word matches is the only one it matches. -/
theorem eq_of_matches {r q : OpRow} {w : Word} (hr : r ∈ opRows) (hq : q ∈ opRows) (hrw : r.matches w = true)
    (hqw : q.matches w = true) : r = q := by
  by_contra hne
  have : Std.Symm OpRow.Disjoint := ⟨fun _ _ => Ne.symm⟩
  have disjoint : r.Disjoint q := opRows_pairwise_disjoint.forall hr hq hne
  exact disjoint.not_matches_both w ⟨hrw, hqw⟩

/-! ## `decode` by the matching row -/

theorem decode_of_matches {r : OpRow} {w : Word} (hr : r ∈ opRows) (hw : r.matches w = true) :
    decode w = .ok (r.build w) := by
  have found : opRows.find? (fun q => q.matches w) = some r := by
    cases h : opRows.find? (fun q => q.matches w) with
    | none => exact absurd hw (by simpa using List.find?_eq_none.1 h r hr)
    | some q =>
      have matched : q.matches w = true := List.find?_some (p := fun r : OpRow => r.matches w) h
      rw [eq_of_matches (List.mem_of_find?_eq_some h) hr matched hw]
  rw [decode, found]

theorem decode_of_no_match {w : Word} (h : ∀ r ∈ opRows, r.matches w = false) :
    decode w = .error (.reservedEncoding w) := by
  have none_found : opRows.find? (fun q => q.matches w) = none :=
    List.find?_eq_none.2 fun r hr => by simp [h r hr]
  rw [decode, none_found]

/-- What `decode` can answer. -/
theorem decode_cases (w : Word) :
    (∃ r ∈ opRows, r.matches w = true ∧ decode w = .ok (r.build w)) ∨
    ((∀ r ∈ opRows, r.matches w = false) ∧ decode w = .error (.reservedEncoding w)) := by
  by_cases h : ∃ r ∈ opRows, r.matches w = true
  · obtain ⟨r, hr, hw⟩ := h
    exact .inl ⟨r, hr, hw, decode_of_matches hr hw⟩
  · have no_match : ∀ r ∈ opRows, r.matches w = false := by simpa using h
    exact .inr ⟨no_match, decode_of_no_match no_match⟩

/-- Settles O4. -/
theorem decodeByTheOneMatchingRow : Obligations.DecodeByTheOneMatchingRow :=
  ⟨rfl, opRows_pairwise_disjoint.imp fun h => h.not_matches_both, fun _ _ hr hw => decode_of_matches hr hw,
    fun _ h => decode_of_no_match h⟩


/-! ## Decoding what was encoded -/

/-- Every constructor's encoded word matches a row that builds the instruction back. -/
theorem encodeRow (i : Instr) : Laws.EncodeRow.Statement i := by
  cases i with
  | add rd rs rt => exact Laws.EncodeRow.add rd rs rt
  | addi rt rs imm => exact Laws.EncodeRow.addi rt rs imm
  | addiu rt rs imm => exact Laws.EncodeRow.addiu rt rs imm
  | addu rd rs rt => exact Laws.EncodeRow.addu rd rs rt
  | and rd rs rt => exact Laws.EncodeRow.and rd rs rt
  | andi rt rs imm => exact Laws.EncodeRow.andi rt rs imm
  | beq rs rt o => exact Laws.EncodeRow.beq rs rt o
  | bgez rs o => exact Laws.EncodeRow.bgez rs o
  | bgezal rs o => exact Laws.EncodeRow.bgezal rs o
  | bgtz rs o => exact Laws.EncodeRow.bgtz rs o
  | blez rs o => exact Laws.EncodeRow.blez rs o
  | bltz rs o => exact Laws.EncodeRow.bltz rs o
  | bltzal rs o => exact Laws.EncodeRow.bltzal rs o
  | bne rs rt o => exact Laws.EncodeRow.bne rs rt o
  | brk c => exact Laws.EncodeRow.brk c
  | cop0 f => exact Laws.EncodeRow.cop0 f
  | j x => exact Laws.EncodeRow.j x
  | jal x => exact Laws.EncodeRow.jal x
  | jr rs => exact Laws.EncodeRow.jr rs
  | jalr rd rs => exact Laws.EncodeRow.jalr rd rs
  | lui rt imm => exact Laws.EncodeRow.lui rt imm
  | lw rt o b => exact Laws.EncodeRow.lw rt o b
  | lwc0 cs o b => exact Laws.EncodeRow.lwc0 cs o b
  | mfc0 rt cs => exact Laws.EncodeRow.mfc0 rt cs
  | mfhi rd => exact Laws.EncodeRow.mfhi rd
  | mflo rd => exact Laws.EncodeRow.mflo rd
  | mtc0 rt cs => exact Laws.EncodeRow.mtc0 rt cs
  | mthi rs => exact Laws.EncodeRow.mthi rs
  | mtlo rs => exact Laws.EncodeRow.mtlo rs
  | mult rs rt => exact Laws.EncodeRow.mult rs rt
  | multu rs rt => exact Laws.EncodeRow.multu rs rt
  | nor rd rs rt => exact Laws.EncodeRow.nor rd rs rt
  | or rd rs rt => exact Laws.EncodeRow.or rd rs rt
  | ori rt rs imm => exact Laws.EncodeRow.ori rt rs imm
  | sll rd rt sa => exact Laws.EncodeRow.sll rd rt sa
  | sllv rd rt rs => exact Laws.EncodeRow.sllv rd rt rs
  | slt rd rs rt => exact Laws.EncodeRow.slt rd rs rt
  | slti rt rs imm => exact Laws.EncodeRow.slti rt rs imm
  | sltiu rt rs imm => exact Laws.EncodeRow.sltiu rt rs imm
  | sltu rd rs rt => exact Laws.EncodeRow.sltu rd rs rt
  | sra rd rt sa => exact Laws.EncodeRow.sra rd rt sa
  | srav rd rt rs => exact Laws.EncodeRow.srav rd rt rs
  | srl rd rt sa => exact Laws.EncodeRow.srl rd rt sa
  | srlv rd rt rs => exact Laws.EncodeRow.srlv rd rt rs
  | sub rd rs rt => exact Laws.EncodeRow.sub rd rs rt
  | subu rd rs rt => exact Laws.EncodeRow.subu rd rs rt
  | sw rt o b => exact Laws.EncodeRow.sw rt o b
  | swc0 cs o b => exact Laws.EncodeRow.swc0 cs o b
  | syscall c => exact Laws.EncodeRow.syscall c
  | xor rd rs rt => exact Laws.EncodeRow.xor rd rs rt
  | xori rt rs imm => exact Laws.EncodeRow.xori rt rs imm

theorem decode_encode (i : Instr) : decode (encode i) = .ok i := by
  obtain ⟨r, hr, matched, built⟩ := encodeRow i
  rw [decode_of_matches hr matched, built]

/-- Settles O1. -/
theorem encodeThenDecode : Obligations.EncodeThenDecode := decode_encode

/-- Settles O3: the bytes of a word, joined in the order they were taken in, are the word. -/
theorem bytesEncodeThenDecode : Obligations.BytesEncodeThenDecode := by
  intro e i rest
  simp only [encodeBytes, List.cons_append, List.nil_append, decodeBytes, Machine.joinBytes_byteAt,
     decode_encode]

/-! ## Encoding what was decoded: a layout filled with a word's own fields

Each layout, filled with the fields of `w`, is `w` outside its fixed bits and the fixed bits' values at them. -/

theorem layoutR3_fields (w : Word) (f : BitVec 6) :
    layoutR3 (rsField w) (rtField w) (rdField w) f = (w &&& ~~~0xFC0007FF) ||| f.zeroExtend 32 := by
  apply BitVec.eq_of_getLsbD_eq
  intro i hi
  simp only [layoutR3, rsField, rtField, rdField, field, BitVec.getLsbD_or, BitVec.getLsbD_and, BitVec.getLsbD_append,
    BitVec.getLsbD_extractLsb']
  interval_cases i <;> simp

theorem layoutRS_fields (w : Word) (f : BitVec 6) :
    layoutRS (rtField w) (rdField w) (saField w) f = (w &&& ~~~0xFFE0003F) ||| f.zeroExtend 32 := by
  apply BitVec.eq_of_getLsbD_eq
  intro i hi
  simp only [layoutRS, rtField, rdField, saField, field, BitVec.getLsbD_or, BitVec.getLsbD_and, BitVec.getLsbD_append,
    BitVec.getLsbD_extractLsb']
  interval_cases i <;> simp

theorem layoutRM_fields (w : Word) (f : BitVec 6) :
    layoutRM (rsField w) (rtField w) f = (w &&& ~~~0xFC00FFFF) ||| f.zeroExtend 32 := by
  apply BitVec.eq_of_getLsbD_eq
  intro i hi
  simp only [layoutRM, rsField, rtField, field, BitVec.getLsbD_or, BitVec.getLsbD_and, BitVec.getLsbD_append,
    BitVec.getLsbD_extractLsb']
  interval_cases i <;> simp

theorem layoutRD_fields (w : Word) (f : BitVec 6) :
    layoutRD (rdField w) f = (w &&& ~~~0xFFFF07FF) ||| f.zeroExtend 32 := by
  apply BitVec.eq_of_getLsbD_eq
  intro i hi
  simp only [layoutRD, rdField, field, BitVec.getLsbD_or, BitVec.getLsbD_and, BitVec.getLsbD_append,
    BitVec.getLsbD_extractLsb']
  interval_cases i <;> simp

theorem layoutR1_fields (w : Word) (f : BitVec 6) :
    layoutR1 (rsField w) f = (w &&& ~~~0xFC1FFFFF) ||| f.zeroExtend 32 := by
  apply BitVec.eq_of_getLsbD_eq
  intro i hi
  simp only [layoutR1, rsField, field, BitVec.getLsbD_or, BitVec.getLsbD_and, BitVec.getLsbD_append,
    BitVec.getLsbD_extractLsb']
  interval_cases i <;> simp

theorem layoutR2J_fields (w : Word) (f : BitVec 6) :
    layoutR2J (rsField w) (rdField w) f = (w &&& ~~~0xFC1F07FF) ||| f.zeroExtend 32 := by
  apply BitVec.eq_of_getLsbD_eq
  intro i hi
  simp only [layoutR2J, rsField, rdField, field, BitVec.getLsbD_or, BitVec.getLsbD_and, BitVec.getLsbD_append,
    BitVec.getLsbD_extractLsb']
  interval_cases i <;> simp

theorem layoutRC_fields (w : Word) (f : BitVec 6) :
    layoutRC (codeField w) f = (w &&& ~~~0xFC00003F) ||| f.zeroExtend 32 := by
  apply BitVec.eq_of_getLsbD_eq
  intro i hi
  simp only [layoutRC, codeField, field, BitVec.getLsbD_or, BitVec.getLsbD_and, BitVec.getLsbD_append,
    BitVec.getLsbD_extractLsb']
  interval_cases i <;> simp

theorem layoutI_fields (w : Word) (op : BitVec 6) :
    layoutI op (rsField w) (rtField w) (immField w) = (w &&& ~~~0xFC000000) ||| (op ++ 0#26) := by
  apply BitVec.eq_of_getLsbD_eq
  intro i hi
  simp only [layoutI, rsField, rtField, immField, field, BitVec.getLsbD_or, BitVec.getLsbD_and, BitVec.getLsbD_append,
    BitVec.getLsbD_extractLsb']
  interval_cases i <;> simp

theorem layoutI_fields_rs (w : Word) (op : BitVec 6) :
    layoutI op (rsField w) 0 (immField w) = (w &&& ~~~0xFC1F0000) ||| (op ++ 0#26) := by
  apply BitVec.eq_of_getLsbD_eq
  intro i hi
  simp only [layoutI, rsField, immField, field, BitVec.getLsbD_or, BitVec.getLsbD_and, BitVec.getLsbD_append,
    BitVec.getLsbD_extractLsb']
  interval_cases i <;> simp

theorem layoutI_fields_rt (w : Word) (op : BitVec 6) :
    layoutI op 0 (rtField w) (immField w) = (w &&& ~~~0xFFE00000) ||| (op ++ 0#26) := by
  apply BitVec.eq_of_getLsbD_eq
  intro i hi
  simp only [layoutI, rtField, immField, field, BitVec.getLsbD_or, BitVec.getLsbD_and, BitVec.getLsbD_append,
    BitVec.getLsbD_extractLsb']
  interval_cases i <;> simp

theorem layoutRI_fields (w : Word) (sel : BitVec 5) :
    layoutRI (rsField w) sel (immField w) = (w &&& ~~~0xFC1F0000) ||| (0b000001#6 ++ 0#5 ++ sel ++ 0#16) := by
  apply BitVec.eq_of_getLsbD_eq
  intro i hi
  simp only [layoutRI, rsField, immField, field, BitVec.getLsbD_or, BitVec.getLsbD_and, BitVec.getLsbD_append,
    BitVec.getLsbD_extractLsb']
  interval_cases i <;> simp

theorem layoutJ_fields (w : Word) (op : BitVec 6) :
    layoutJ op (indexField w) = (w &&& ~~~0xFC000000) ||| (op ++ 0#26) := by
  apply BitVec.eq_of_getLsbD_eq
  intro i hi
  simp only [layoutJ, indexField, field, BitVec.getLsbD_or, BitVec.getLsbD_and, BitVec.getLsbD_append,
    BitVec.getLsbD_extractLsb']
  interval_cases i <;> simp

theorem layoutCM_fields (w : Word) (sel : BitVec 5) :
    layoutCM sel (rtField w) (rdField w) = (w &&& ~~~0xFFE007FF) ||| (0b010000#6 ++ sel ++ 0#21) := by
  apply BitVec.eq_of_getLsbD_eq
  intro i hi
  simp only [layoutCM, rtField, rdField, field, BitVec.getLsbD_or, BitVec.getLsbD_and, BitVec.getLsbD_append,
    BitVec.getLsbD_extractLsb']
  interval_cases i <;> simp

theorem layoutCF_fields (w : Word) :
    layoutCF (copFunField w) = (w &&& ~~~0xFFE00000) ||| (0b010000#6 ++ 0b00001#5 ++ 0#21) := by
  apply BitVec.eq_of_getLsbD_eq
  intro i hi
  simp only [layoutCF, copFunField, field, BitVec.getLsbD_or, BitVec.getLsbD_and, BitVec.getLsbD_append,
    BitVec.getLsbD_extractLsb']
  interval_cases i <;> simp

/-- Encoding what the row builds from a word gives that word outside the mask and the row's value inside it. -/
def OpRow.Rebuilds (r : OpRow) : Prop := ∀ w, encode (r.build w) = (w &&& ~~~r.mask) ||| r.value

theorem OpRow.Rebuilds.encode_build {r : OpRow} (h : r.Rebuilds) {w : Word} (hw : r.matches w = true) :
    encode (r.build w) = w := by
  have value : w &&& r.mask = r.value := by simpa [OpRow.matches] using hw
  rw [h w, ← value, ← BitVec.and_or_distrib_left, BitVec.or_comm, BitVec.or_not_self, BitVec.and_allOnes]

theorem arithRows_rebuild : ∀ r ∈ arithRows, r.Rebuilds := by
  simp only [arithRows, List.forall_mem_cons]
  exact ⟨(layoutR3_fields · 0x20), (layoutI_fields · 0x08), (layoutI_fields · 0x09), (layoutR3_fields · 0x21),
    (layoutR3_fields · 0x22), (layoutR3_fields · 0x23), (layoutR3_fields · 0x2A), (layoutI_fields · 0x0A),
    (layoutI_fields · 0x0B), (layoutR3_fields · 0x2B), List.forall_mem_nil _⟩

theorem logicRows_rebuild : ∀ r ∈ logicRows, r.Rebuilds := by
  simp only [logicRows, List.forall_mem_cons]
  exact ⟨(layoutR3_fields · 0x24), (layoutI_fields · 0x0C), (layoutR3_fields · 0x27), (layoutR3_fields · 0x25),
    (layoutI_fields · 0x0D), (layoutR3_fields · 0x26), (layoutI_fields · 0x0E), (layoutI_fields_rt · 0x0F),
    List.forall_mem_nil _⟩

theorem shiftRows_rebuild : ∀ r ∈ shiftRows, r.Rebuilds := by
  simp only [shiftRows, List.forall_mem_cons]
  exact ⟨(layoutRS_fields · 0x00), (layoutR3_fields · 0x04), (layoutRS_fields · 0x03), (layoutR3_fields · 0x07),
    (layoutRS_fields · 0x02), (layoutR3_fields · 0x06), List.forall_mem_nil _⟩

theorem multRows_rebuild : ∀ r ∈ multRows, r.Rebuilds := by
  simp only [multRows, List.forall_mem_cons]
  exact ⟨(layoutRM_fields · 0x18), (layoutRM_fields · 0x19), (layoutRD_fields · 0x10), (layoutRD_fields · 0x12),
    (layoutR1_fields · 0x11), (layoutR1_fields · 0x13), List.forall_mem_nil _⟩

theorem branchRows_rebuild : ∀ r ∈ branchRows, r.Rebuilds := by
  simp only [branchRows, List.forall_mem_cons]
  exact ⟨(layoutI_fields · 0x04), (layoutI_fields · 0x05), (layoutRI_fields · 0b00001), (layoutRI_fields · 0b10001),
    (layoutI_fields_rs · 0x07), (layoutI_fields_rs · 0x06), (layoutRI_fields · 0b00000), (layoutRI_fields · 0b10000),
    List.forall_mem_nil _⟩

theorem jumpRows_rebuild : ∀ r ∈ jumpRows, r.Rebuilds := by
  simp only [jumpRows, List.forall_mem_cons]
  exact ⟨(layoutJ_fields · 0x02), (layoutJ_fields · 0x03), (layoutR1_fields · 0x08), (layoutR2J_fields · 0x09),
    List.forall_mem_nil _⟩

theorem memoryRows_rebuild : ∀ r ∈ memoryRows, r.Rebuilds := by
  simp only [memoryRows, List.forall_mem_cons]
  exact ⟨(layoutI_fields · 0x23), (layoutI_fields · 0x2B), List.forall_mem_nil _⟩

theorem cop0Rows_rebuild : ∀ r ∈ cop0Rows, r.Rebuilds := by
  simp only [cop0Rows, List.forall_mem_cons]
  exact ⟨layoutCF_fields, (layoutCM_fields · 0b00000), (layoutCM_fields · 0b00100), (layoutI_fields · 0x30),
    (layoutI_fields · 0x38), List.forall_mem_nil _⟩

theorem trapRows_rebuild : ∀ r ∈ trapRows, r.Rebuilds := by
  simp only [trapRows, List.forall_mem_cons]
  exact ⟨(layoutRC_fields · 0x0D), (layoutRC_fields · 0x0C), List.forall_mem_nil _⟩

theorem opRows_rebuild : ∀ r ∈ opRows, r.Rebuilds := by
  simp only [opRows, List.forall_mem_append]
  exact ⟨⟨⟨⟨⟨⟨⟨⟨arithRows_rebuild, logicRows_rebuild⟩, shiftRows_rebuild⟩, multRows_rebuild⟩, branchRows_rebuild⟩,
    jumpRows_rebuild⟩, memoryRows_rebuild⟩, cop0Rows_rebuild⟩, trapRows_rebuild⟩

/-- Settles O2: the word is rebuilt by the row it matches. -/
theorem decodeThenEncode : Obligations.DecodeThenEncode := by
  intro w i h
  rcases decode_cases w with ⟨r, hr, matched, decoded⟩ | ⟨-, rejected⟩
  · obtain rfl : r.build w = i := by simpa [decoded] using h
    exact (opRows_rebuild r hr).encode_build matched
  · simp [rejected] at h

end Sys2Proof

/-! PROOFS. The reserved encodings are the words whose fields say so (spec/30_encoding.md sections 3 and 4): a row's
mask is read as the fields it fixes, and the rows are then told apart by opcode, function and selector. -/

namespace Sys2Proof.Machine

/-! ## A mask as the fields it fixes -/

/-- Two words agree under a mask exactly when they agree at each of its bits. -/
theorem and_eq_and_iff (w v m : Word) :
    w &&& m = v &&& m ↔ ∀ i, m.getLsbD i = true → w.getLsbD i = v.getLsbD i := by
  constructor
  · intro e i hi
    simpa [hi] using congrArg (fun x => x.getLsbD i) e
  · intro h
    apply BitVec.eq_of_getLsbD_eq
    intro i _
    cases hi : m.getLsbD i with
    | false => simp [hi]
    | true => simp [hi, h i hi]

theorem and_or_eq_iff (w v m k : Word) :
    w &&& (m ||| k) = v &&& (m ||| k) ↔ w &&& m = v &&& m ∧ w &&& k = v &&& k := by
  simp only [and_eq_and_iff, BitVec.getLsbD_or, Bool.or_eq_true, or_imp, forall_and]

/-- The bits of the field of `n` bits whose lowest is bit `lo`. -/
def fieldMask (lo n : Nat) : Word := BitVec.ofNat 32 ((2 ^ n - 1) * 2 ^ lo)

theorem fieldMask_getLsbD (lo n i : Nat) :
    (fieldMask lo n).getLsbD i = true ↔ i < 32 ∧ lo ≤ i ∧ i - lo < n := by
  simp [fieldMask, BitVec.getLsbD_ofNat, Nat.testBit_mul_two_pow]

theorem and_fieldMask_eq_iff {lo n : Nat} (h : lo + n ≤ 32) (w v : Word) :
    w &&& fieldMask lo n = v &&& fieldMask lo n ↔ field w lo n = field v lo n := by
  rw [and_eq_and_iff]
  constructor
  · intro e
    apply BitVec.eq_of_getLsbD_eq
    intro i hi
    have bit := e (lo + i) ((fieldMask_getLsbD ..).2 (by omega))
    simpa only [field, BitVec.getLsbD_extractLsb', hi, decide_true, Bool.true_and] using bit
  · intro e i hi
    obtain ⟨-, above, below⟩ := (fieldMask_getLsbD ..).1 hi
    have bit := congrArg (fun x => x.getLsbD (i - lo)) e
    simpa [field, below, Nat.add_sub_cancel' above] using bit

/-- The bits of several fields, each given by its lowest bit and its width. -/
def fieldsMask : List (Nat × Nat) → Word
  | [] => 0
  | (lo, n) :: fs => fieldMask lo n ||| fieldsMask fs

/-- A word has the fixed bits of a row exactly when it has the row's value in each fixed field. -/
theorem and_eq_iff_fields (fs : List (Nat × Nat)) (inside : ∀ f ∈ fs, f.1 + f.2 ≤ 32) {mask value : Word}
    (hmask : mask = fieldsMask fs) (hvalue : value &&& mask = value) (w : Word) :
    w &&& mask = value ↔ ∀ f ∈ fs, field w f.1 f.2 = value.extractLsb' f.1 f.2 := by
  have agree : w &&& fieldsMask fs = value &&& fieldsMask fs ↔ ∀ f ∈ fs, field w f.1 f.2 = field value f.1 f.2 := by
    clear hmask hvalue
    induction fs with
    | nil => simp [fieldsMask]
    | cons f fs ih =>
      rw [List.forall_mem_cons] at inside ⊢
      rw [fieldsMask, and_or_eq_iff, and_fieldMask_eq_iff inside.1, ih inside.2]
  rw [← hmask, hvalue] at agree
  exact agree

/-! ## The eleven masks of the table -/

theorem maskR3_iff {v : Word} (hv : v &&& 0xFC0007FF#32 = v) (w : Word) : w &&& 0xFC0007FF#32 = v ↔
    field w 26 6 = v.extractLsb' 26 6 ∧ field w 6 5 = v.extractLsb' 6 5 ∧ field w 0 6 = v.extractLsb' 0 6 := by
  simpa only [List.forall_mem_cons, List.not_mem_nil, false_imp_iff, implies_true, and_true] using
    and_eq_iff_fields [(26, 6), (6, 5), (0, 6)] (by decide) (by decide) hv w

theorem maskI_iff {v : Word} (hv : v &&& 0xFC000000#32 = v) (w : Word) : w &&& 0xFC000000#32 = v ↔
    field w 26 6 = v.extractLsb' 26 6 := by
  simpa only [List.forall_mem_cons, List.not_mem_nil, false_imp_iff, implies_true, and_true] using
    and_eq_iff_fields [(26, 6)] (by decide) (by decide) hv w

theorem maskRS_iff {v : Word} (hv : v &&& 0xFFE0003F#32 = v) (w : Word) : w &&& 0xFFE0003F#32 = v ↔
    field w 26 6 = v.extractLsb' 26 6 ∧ field w 21 5 = v.extractLsb' 21 5 ∧ field w 0 6 = v.extractLsb' 0 6 := by
  simpa only [List.forall_mem_cons, List.not_mem_nil, false_imp_iff, implies_true, and_true] using
    and_eq_iff_fields [(26, 6), (21, 5), (0, 6)] (by decide) (by decide) hv w

theorem maskRM_iff {v : Word} (hv : v &&& 0xFC00FFFF#32 = v) (w : Word) : w &&& 0xFC00FFFF#32 = v ↔
    field w 26 6 = v.extractLsb' 26 6 ∧ field w 6 10 = v.extractLsb' 6 10 ∧ field w 0 6 = v.extractLsb' 0 6 := by
  simpa only [List.forall_mem_cons, List.not_mem_nil, false_imp_iff, implies_true, and_true] using
    and_eq_iff_fields [(26, 6), (6, 10), (0, 6)] (by decide) (by decide) hv w

theorem maskRD_iff {v : Word} (hv : v &&& 0xFFFF07FF#32 = v) (w : Word) : w &&& 0xFFFF07FF#32 = v ↔
    field w 26 6 = v.extractLsb' 26 6 ∧ field w 16 10 = v.extractLsb' 16 10 ∧ field w 6 5 = v.extractLsb' 6 5 ∧
    field w 0 6 = v.extractLsb' 0 6 := by
  simpa only [List.forall_mem_cons, List.not_mem_nil, false_imp_iff, implies_true, and_true] using
    and_eq_iff_fields [(26, 6), (16, 10), (6, 5), (0, 6)] (by decide) (by decide) hv w

theorem maskR1_iff {v : Word} (hv : v &&& 0xFC1FFFFF#32 = v) (w : Word) : w &&& 0xFC1FFFFF#32 = v ↔
    field w 26 6 = v.extractLsb' 26 6 ∧ field w 6 15 = v.extractLsb' 6 15 ∧ field w 0 6 = v.extractLsb' 0 6 := by
  simpa only [List.forall_mem_cons, List.not_mem_nil, false_imp_iff, implies_true, and_true] using
    and_eq_iff_fields [(26, 6), (6, 15), (0, 6)] (by decide) (by decide) hv w

theorem maskR2J_iff {v : Word} (hv : v &&& 0xFC1F07FF#32 = v) (w : Word) : w &&& 0xFC1F07FF#32 = v ↔
    field w 26 6 = v.extractLsb' 26 6 ∧ field w 16 5 = v.extractLsb' 16 5 ∧ field w 6 5 = v.extractLsb' 6 5 ∧
    field w 0 6 = v.extractLsb' 0 6 := by
  simpa only [List.forall_mem_cons, List.not_mem_nil, false_imp_iff, implies_true, and_true] using
    and_eq_iff_fields [(26, 6), (16, 5), (6, 5), (0, 6)] (by decide) (by decide) hv w

theorem maskRC_iff {v : Word} (hv : v &&& 0xFC00003F#32 = v) (w : Word) : w &&& 0xFC00003F#32 = v ↔
    field w 26 6 = v.extractLsb' 26 6 ∧ field w 0 6 = v.extractLsb' 0 6 := by
  simpa only [List.forall_mem_cons, List.not_mem_nil, false_imp_iff, implies_true, and_true] using
    and_eq_iff_fields [(26, 6), (0, 6)] (by decide) (by decide) hv w

theorem maskRI_iff {v : Word} (hv : v &&& 0xFC1F0000#32 = v) (w : Word) : w &&& 0xFC1F0000#32 = v ↔
    field w 26 6 = v.extractLsb' 26 6 ∧ field w 16 5 = v.extractLsb' 16 5 := by
  simpa only [List.forall_mem_cons, List.not_mem_nil, false_imp_iff, implies_true, and_true] using
    and_eq_iff_fields [(26, 6), (16, 5)] (by decide) (by decide) hv w

theorem maskCF_iff {v : Word} (hv : v &&& 0xFFE00000#32 = v) (w : Word) : w &&& 0xFFE00000#32 = v ↔
    field w 26 6 = v.extractLsb' 26 6 ∧ field w 21 5 = v.extractLsb' 21 5 := by
  simpa only [List.forall_mem_cons, List.not_mem_nil, false_imp_iff, implies_true, and_true] using
    and_eq_iff_fields [(26, 6), (21, 5)] (by decide) (by decide) hv w

theorem maskCM_iff {v : Word} (hv : v &&& 0xFFE007FF#32 = v) (w : Word) : w &&& 0xFFE007FF#32 = v ↔
    field w 26 6 = v.extractLsb' 26 6 ∧ field w 21 5 = v.extractLsb' 21 5 ∧ field w 0 11 = v.extractLsb' 0 11 := by
  simpa only [List.forall_mem_cons, List.not_mem_nil, false_imp_iff, implies_true, and_true] using
    and_eq_iff_fields [(26, 6), (21, 5), (0, 11)] (by decide) (by decide) hv w

/-! ## The rows and the reserved encodings -/

/-- A row matches a word exactly when the word's fields are not those of a reserved encoding (R93 to R96, R100). Once
the masks are read as fields, the word's opcode, then its function or selector, leaves one row. -/
theorem exists_matching_row_iff (w : Word) :
    (∃ r ∈ opRows, r.matches w = true) ↔ reservedByFields w = false := by
  simp only [opRows, arithRows, logicRows, shiftRows, multRows, branchRows, jumpRows, memoryRows, cop0Rows, trapRows,
    List.mem_append, List.mem_cons, List.not_mem_nil, or_false, or_and_right, exists_or, exists_eq_left,
    OpRow.matches, beq_iff_eq, BitVec.ofNat_eq_ofNat, maskR3_iff, maskI_iff, maskRS_iff, maskRM_iff, maskRD_iff,
    maskR1_iff, maskR2J_iff, maskRC_iff, maskRI_iff, maskCF_iff, maskCM_iff, BitVec.reduceAnd,
    BitVec.reduceExtractLsb']
  unfold reservedByFields
  by_cases special : field w 26 6 = 0#6
  · by_cases assigned : field w 0 6 ∈ assignedFunctions
    · simp only [assignedFunctions, BitVec.ofNat_eq_ofNat, List.mem_cons, List.not_mem_nil, or_false] at assigned
      rcases assigned with fn | fn | fn | fn | fn | fn | fn | fn | fn | fn | fn | fn | fn | fn | fn | fn | fn | fn |
        fn | fn | fn | fn | fn | fn | fn | fn
      all_goals simp [special, fn, assignedOpcodes, assignedFunctions, dirtySpecial]
    · simp only [assignedFunctions, BitVec.ofNat_eq_ofNat, List.mem_cons, List.not_mem_nil, or_false,
        not_or] at assigned
      simp [special, assigned, assignedOpcodes, assignedFunctions]
  by_cases regimm : field w 26 6 = 1#6
  · by_cases assigned : field w 16 5 ∈ assignedRegimm
    · simp only [assignedRegimm, BitVec.ofNat_eq_ofNat, List.mem_cons, List.not_mem_nil, or_false] at assigned
      rcases assigned with selector | selector | selector | selector
      all_goals simp [regimm, selector, assignedOpcodes, assignedRegimm]
    · simp only [assignedRegimm, BitVec.ofNat_eq_ofNat, List.mem_cons, List.not_mem_nil, or_false, not_or] at assigned
      simp [regimm, assigned, assignedOpcodes, assignedRegimm]
  by_cases cop0 : field w 26 6 = 16#6
  · by_cases assigned : field w 21 5 ∈ assignedCop0
    · simp only [assignedCop0, BitVec.ofNat_eq_ofNat, List.mem_cons, List.not_mem_nil, or_false] at assigned
      rcases assigned with selector | selector | selector
      all_goals simp [cop0, selector, assignedOpcodes, assignedCop0]
    · simp only [assignedCop0, BitVec.ofNat_eq_ofNat, List.mem_cons, List.not_mem_nil, or_false, not_or] at assigned
      simp [cop0, assigned, assignedOpcodes, assignedCop0]
  by_cases assigned : field w 26 6 ∈ assignedOpcodes
  · simp only [assignedOpcodes, BitVec.ofNat_eq_ofNat, List.mem_cons, List.not_mem_nil, or_false, special, regimm,
      cop0, false_or] at assigned
    rcases assigned with op | op | op | op | op | op | op | op | op | op | op | op | op | op | op | op | op | op
    all_goals simp [op, assignedOpcodes]
  · simp only [assignedOpcodes, BitVec.ofNat_eq_ofNat, List.mem_cons, List.not_mem_nil, or_false, not_or] at assigned
    simp [assigned, assignedOpcodes]

/-- Settles O5. -/
theorem reservedEncodingsExactly : Obligations.ReservedEncodingsExactly := by
  intro w
  have rows := exists_matching_row_iff w
  rcases decode_cases w with ⟨r, hr, matched, decoded⟩ | ⟨unmatched, rejected⟩
  · simp [decoded, rows.1 ⟨r, hr, matched⟩]
  · have reserved : reservedByFields w ≠ false := fun h => by
      obtain ⟨r, hr, matched⟩ := rows.2 h
      simp [unmatched r hr] at matched
    simpa [rejected] using reserved

/-- Settles O6. -/
theorem decodeOfWrittenWords : Obligations.DecodeOfWrittenWords := by
  refine ⟨decode_add, decode_addi, decode_ori, ?srl, decode_mult, decode_bgezal, decode_jal, ?jalr, decode_sw,
    decode_mtc0, decode_lwc0, decode_cop0, ?brk, ?nop, ?divide, ?dirty, ?selector, ?opcode⟩
  all_goals decide

end Sys2Proof.Machine

/-! PROOFS. The shapes of the 51 meanings. An instruction reads its operands first (spec/00_scope.md R16); what it then
does has one of ten shapes, its `Plan`. `exec_eq_run` ties the plans to the model; what the tables of the spec say of
an instruction is then said of its plan, and what every instruction keeps is proved shape by shape. -/

namespace Sys2Proof.Machine

/-! ## The plan of an instruction -/

/-- What an instruction does once its operands are read (R35, steps 6 to 9). -/
inductive Plan where
  /-- A result for a general register. -/
  | write (r : RegNum) (v : Word)
  /-- The same, or Integer Overflow (R121). -/
  | checked (overflow : Bool) (r : RegNum) (v : Word)
  /-- New values of HI and LO, where given. -/
  | writeHiLo (hi lo : Option Word)
  /-- A value for a coprocessor 0 register. -/
  | writeC0 (r : RegNum) (v : Word)
  /-- The word at an effective address for a general register. -/
  | load (r : RegNum) (ea : Word)
  /-- The word at an effective address for a coprocessor 0 register. -/
  | loadC0 (r : RegNum) (ea : Word)
  /-- A word for an effective address. -/
  | store (ea v : Word)
  /-- A branch or jump, UNPREDICTABLE if `forbidden`, with the register it may link. -/
  | jump (forbidden taken : Bool) (link : Option RegNum) (target : Word)
  /-- An exception, always. -/
  | trap (k : ExcKind)
  /-- An operation of the coprocessor system. -/
  | operate (f : BitVec 21)

/-- The link of a branch or jump, written where it is taken or `LINK_ON_NOT_TAKEN` says so (R202, R231). -/
def State.link (s : State) (taken : Bool) : Option RegNum → State
  | none => s
  | some r => if taken || s.cfg.linkOnNotTaken then s.writeGpr r (returnLink s.pc) else s

/-- The outcome of a plan. -/
def Plan.run (s : State) : Plan → Result
  | .write r v => s.writeAndAdvance r v
  | .checked overflow r v => if overflow then takeException s .integerOverflow else s.writeAndAdvance r v
  | .writeHiLo hi lo => .next { s with hi := hi.getD s.hi, lo := lo.getD s.lo }.advance
  | .writeC0 r v => .next (s.writeC0 r v).advance
  | .load r ea => State.finish ((s.loadWord ea).map (s.writeGpr r))
  | .loadC0 r ea => State.finish ((s.loadWord ea).map (s.writeC0 r))
  | .store ea v => State.finish (s.storeWord ea v)
  | .jump forbidden taken link target =>
    s.outsideDelaySlot (unlessUnpredictable forbidden (.next ((s.link taken link).branchIf taken target)))
  | .trap k => takeException s k
  | .operate f => s.finishCop0 (s.cop0Outcome f)

/-- The plan of an instruction executed in the state `s`. -/
def planOf (s : State) : Instr → Plan
  | .add rd rs rt =>
    .checked (addOverflow (s.readGpr rs) (s.readGpr rt)) rd (s.readGpr rs + s.readGpr rt)
  | .addi rt rs imm => .checked (addOverflow (s.readGpr rs) (signImm imm)) rt (s.readGpr rs + signImm imm)
  | .addiu rt rs imm => .write rt (s.readGpr rs + signImm imm)
  | .addu rd rs rt => .write rd (s.readGpr rs + s.readGpr rt)
  | .and rd rs rt => .write rd (s.readGpr rs &&& s.readGpr rt)
  | .andi rt rs imm => .write rt (s.readGpr rs &&& zeroImm imm)
  | .beq rs rt o => .jump false (s.readGpr rs == s.readGpr rt) none (branchTarget s.pc o)
  | .bgez rs o => .jump false (atLeastZero (s.readGpr rs)) none (branchTarget s.pc o)
  | .bgezal rs o => .jump (rs == 31) (atLeastZero (s.readGpr rs)) (some 31) (branchTarget s.pc o)
  | .bgtz rs o => .jump false (aboveZero (s.readGpr rs)) none (branchTarget s.pc o)
  | .blez rs o => .jump false (atMostZero (s.readGpr rs)) none (branchTarget s.pc o)
  | .bltz rs o => .jump false (belowZero (s.readGpr rs)) none (branchTarget s.pc o)
  | .bltzal rs o => .jump (rs == 31) (belowZero (s.readGpr rs)) (some 31) (branchTarget s.pc o)
  | .bne rs rt o => .jump false (s.readGpr rs != s.readGpr rt) none (branchTarget s.pc o)
  | .brk _ => .trap .breakpoint
  | .cop0 f => .operate f
  | .j x => .jump false true none (regionTarget s.pc x)
  | .jal x => .jump false true (some 31) (regionTarget s.pc x)
  | .jr rs => .jump false true none (registerTarget s.cfg (s.readGpr rs))
  | .jalr rd rs => .jump (rs == rd) true (some rd) (registerTarget s.cfg (s.readGpr rs))
  | .lui rt imm => .write rt (upperImm imm)
  | .lw rt o base => .load rt (effectiveAddress (s.readGpr base) o)
  | .lwc0 cs o base => .loadC0 cs (effectiveAddress (s.readGpr base) o)
  | .mfc0 rt cs => .write rt (s.readC0 cs)
  | .mfhi rd => .write rd s.hi
  | .mflo rd => .write rd s.lo
  | .mtc0 rt cs => .writeC0 cs (s.readGpr rt)
  | .mthi rs => .writeHiLo (some (s.readGpr rs)) none
  | .mtlo rs => .writeHiLo none (some (s.readGpr rs))
  | .mult rs rt =>
    let product := BitVec.ofInt 64 ((s.readGpr rs).toInt * (s.readGpr rt).toInt)
    .writeHiLo (some (product.extractLsb' 32 32)) (some (product.extractLsb' 0 32))
  | .multu rs rt =>
    let product := BitVec.ofNat 64 ((s.readGpr rs).toNat * (s.readGpr rt).toNat)
    .writeHiLo (some (product.extractLsb' 32 32)) (some (product.extractLsb' 0 32))
  | .nor rd rs rt => .write rd (~~~(s.readGpr rs ||| s.readGpr rt))
  | .or rd rs rt => .write rd (s.readGpr rs ||| s.readGpr rt)
  | .ori rt rs imm => .write rt (s.readGpr rs ||| zeroImm imm)
  | .sll rd rt sa => .write rd (s.readGpr rt <<< sa)
  | .sllv rd rt rs => .write rd (s.readGpr rt <<< shiftAmount (s.readGpr rs))
  | .slt rd rs rt => .write rd (boolWord (lessSigned (s.readGpr rs) (s.readGpr rt)))
  | .slti rt rs imm => .write rt (boolWord (lessSigned (s.readGpr rs) (signImm imm)))
  | .sltiu rt rs imm => .write rt (boolWord (lessUnsigned (s.readGpr rs) (signImm imm)))
  | .sltu rd rs rt => .write rd (boolWord (lessUnsigned (s.readGpr rs) (s.readGpr rt)))
  | .sra rd rt sa => .write rd ((s.readGpr rt).sshiftRight' sa)
  | .srav rd rt rs => .write rd ((s.readGpr rt).sshiftRight' (shiftAmount (s.readGpr rs)))
  | .srl rd rt sa => .write rd (s.readGpr rt >>> sa)
  | .srlv rd rt rs => .write rd (s.readGpr rt >>> shiftAmount (s.readGpr rs))
  | .sub rd rs rt =>
    .checked (subOverflow (s.readGpr rs) (s.readGpr rt)) rd (s.readGpr rs - s.readGpr rt)
  | .subu rd rs rt => .write rd (s.readGpr rs - s.readGpr rt)
  | .sw rt o base => .store (effectiveAddress (s.readGpr base) o) (s.readGpr rt)
  | .swc0 cs o base => .store (effectiveAddress (s.readGpr base) o) (s.readC0 cs)
  | .syscall _ => .trap .systemCall
  | .xor rd rs rt => .write rd (s.readGpr rs ^^^ s.readGpr rt)
  | .xori rt rs imm => .write rt (s.readGpr rs ^^^ zeroImm imm)

/-- Every instruction does what its plan says. -/
theorem exec_eq_run (i : Instr) (s : State) : exec i s = (planOf s i).run s := by
  cases i <;> rfl

/-! ## `State.link`: what a link leaves unchanged -/

@[simp] theorem State.link_cfg (s : State) (c : Bool) (l : Option RegNum) : (s.link c l).cfg = s.cfg := by
  cases l with
  | none => rfl
  | some r => simp only [State.link]; split <;> simp

@[simp] theorem State.link_hi (s : State) (c : Bool) (l : Option RegNum) : (s.link c l).hi = s.hi := by
  cases l with
  | none => rfl
  | some r => simp only [State.link]; split <;> simp

@[simp] theorem State.link_lo (s : State) (c : Bool) (l : Option RegNum) : (s.link c l).lo = s.lo := by
  cases l with
  | none => rfl
  | some r => simp only [State.link]; split <;> simp

@[simp] theorem State.link_c0 (s : State) (c : Bool) (l : Option RegNum) : (s.link c l).c0 = s.c0 := by
  cases l with
  | none => rfl
  | some r => simp only [State.link]; split <;> simp

@[simp] theorem State.link_pc (s : State) (c : Bool) (l : Option RegNum) : (s.link c l).pc = s.pc := by
  cases l with
  | none => rfl
  | some r => simp only [State.link]; split <;> simp

@[simp] theorem State.link_npc (s : State) (c : Bool) (l : Option RegNum) : (s.link c l).npc = s.npc := by
  cases l with
  | none => rfl
  | some r => simp only [State.link]; split <;> simp

@[simp] theorem State.link_bd (s : State) (c : Bool) (l : Option RegNum) : (s.link c l).bd = s.bd := by
  cases l with
  | none => rfl
  | some r => simp only [State.link]; split <;> simp

@[simp] theorem State.link_mem (s : State) (c : Bool) (l : Option RegNum) : (s.link c l).mem = s.mem := by
  cases l with
  | none => rfl
  | some r => simp only [State.link]; split <;> simp

@[simp] theorem State.link_stored (s : State) (c : Bool) (l : Option RegNum) : (s.link c l).stored = s.stored := by
  cases l with
  | none => rfl
  | some r => simp only [State.link]; split <;> simp

@[simp] theorem State.link_trapRec (s : State) (c : Bool) (l : Option RegNum) : (s.link c l).trapRec = s.trapRec := by
  cases l with
  | none => rfl
  | some r => simp only [State.link]; split <;> simp

@[simp] theorem State.link_interrupts (s : State) (c : Bool) (l : Option RegNum) :
    (s.link c l).interrupts = s.interrupts := by
  cases l with
  | none => rfl
  | some r => simp only [State.link]; split <;> simp

theorem State.link_zeroCell {s : State} (h : s.gpr[0] = 0) (c : Bool) (l : Option RegNum) :
    (s.link c l).gpr[0] = 0 := by
  cases l with
  | none => exact h
  | some r =>
    simp only [State.link]
    split
    · exact State.writeGpr_zeroCell h r _
    · exact h

/-! ## How a plan completes -/

/-- Taking the exception `k` in `s` goes to the handler, and `t` is the state there. -/
def AtHandler (k : ExcKind) (s t : State) : Prop :=
  ∃ a, s.handlerAddress (s.excRecord k) = some a ∧ t = s.enterHandler a (s.excRecord k)

/-- The state `t` is the next state of the plan, executed in `s`. -/
def Plan.Completes (s t : State) : Plan → Prop
  | .write r v => t = (s.writeGpr r v).advance
  | .checked overflow r v => if overflow then AtHandler .integerOverflow s t else t = (s.writeGpr r v).advance
  | .writeHiLo hi lo => t = { s with hi := hi.getD s.hi, lo := lo.getD s.lo }.advance
  | .writeC0 r v => t = (s.writeC0 r v).advance
  | .load r ea => ∃ a v, dataAddress s.cfg ea = .ok a ∧ s.readWord a = some v ∧ t = (s.writeGpr r v).advance
  | .loadC0 r ea => ∃ a v, dataAddress s.cfg ea = .ok a ∧ s.readWord a = some v ∧ t = (s.writeC0 r v).advance
  | .store ea v => ∃ a, dataAddress s.cfg ea = .ok a ∧ t = (s.writeWord a v).advance
  | .jump forbidden taken link target =>
    s.bd = false ∧ forbidden = false ∧ t = (s.link taken link).branchIf taken target
  | .trap k => AtHandler k s t
  | .operate f =>
    (∃ k, s.cop0Outcome f = .raises k ∧ AtHandler k s t) ∨ ∃ e, s.cop0Outcome f = .completes e ∧ t = s.applyCop0 e

theorem State.finish_map_next {x : Except Refusal Word} {g : Word → State} {t : State}
    (h : State.finish (x.map g) = .next t) : ∃ v, x = .ok v ∧ t = (g v).advance := by
  cases x with
  | error r => cases h
  | ok v => cases h; exact ⟨v, rfl, rfl⟩

/-- All a plan can complete with. -/
theorem Plan.completes_of_run {p : Plan} {s t : State} (h : p.run s = .next t) : p.Completes s t := by
  cases p with
  | write r v => cases h; rfl
  | checked overflow r v =>
    cases overflow with
    | true => exact takeException_next h
    | false => cases h; rfl
  | writeHiLo hi lo => cases h; rfl
  | writeC0 r v => cases h; rfl
  | load r ea =>
    obtain ⟨v, loaded, ht⟩ := State.finish_map_next h
    obtain ⟨a, ha, hv⟩ := State.loadWord_ok loaded
    exact ⟨a, v, ha, hv, ht⟩
  | loadC0 r ea =>
    obtain ⟨v, loaded, ht⟩ := State.finish_map_next h
    obtain ⟨a, ha, hv⟩ := State.loadWord_ok loaded
    exact ⟨a, v, ha, hv, ht⟩
  | store ea v =>
    obtain ⟨u, stored, ht⟩ := State.finish_next h
    obtain ⟨a, ha, rfl⟩ := State.storeWord_ok stored
    exact ⟨a, ha, ht⟩
  | jump forbidden taken link target =>
    obtain ⟨outside, h⟩ := State.outsideDelaySlot_next h
    obtain ⟨allowed, h⟩ := unlessUnpredictable_next h
    cases h
    exact ⟨outside, allowed, rfl⟩
  | trap k => exact takeException_next h
  | operate f =>
    rcases State.finishCop0_cases s (s.cop0Outcome f) with ⟨-, e⟩ | ⟨k, hk, e⟩ | ⟨effect, he, e⟩
    · exact absurd (e.symm.trans h) (by simp)
    · exact .inl ⟨k, hk, takeException_next (e.symm.trans h)⟩
    · have ht := e.symm.trans h
      cases ht
      exact .inr ⟨effect, he, rfl⟩

theorem completes_of_exec {i : Instr} {s t : State} (h : exec i s = .next t) : (planOf s i).Completes s t :=
  Plan.completes_of_run (exec_eq_run i s ▸ h)

end Sys2Proof.Machine

/-! PROOFS. The invariant of the machine (spec/10_state.md sections 1, 5, 6): every plan, trap entry and every step
keep it, so every run does. -/

namespace Sys2Proof.Machine

/-! ## Memory and the stored words -/

/-- The part of the invariant about memory and the stored words. -/
def MemorySound (m : Memory) (stored : AddrSet) : Prop :=
  m.wf ∧ m.inSpace ∧ stored.wf ∧ ∀ a ∈ stored, a % 4 = 0 ∧ a < 2 ^ 32 ∧ ∀ k < 4, (m.get (a + k)).isSome

theorem sound_iff (s : State) :
    Sound s ↔ s.gpr[0] = 0 ∧ MemorySound s.mem s.stored ∧ (s.bd = false → s.npc = s.pc + 4) := by
  simp only [Sound, MemorySound, and_assoc]

theorem Memory.writeWord_isSome {m : Memory} {y : Nat} (h : (m.get y).isSome) (e : Endian) (a v : Word) :
    ((m.writeWord e a v).get y).isSome :=
  Memory.put_isSome (Memory.put_isSome (Memory.put_isSome (Memory.put_isSome h _ _) _ _) _ _) _ _

/-- The four bytes of a word just written have values. -/
theorem Memory.writeWord_isSome_inside (m : Memory) (e : Endian) (a v : Word) {k : Nat} (h : k < 4) :
    ((m.writeWord e a v).get (a.toNat + k)).isSome := by
  rw [Memory.get_writeWord]
  interval_cases k <;> simp

/-- A write of a word at an aligned address keeps memory and the stored words sound. -/
theorem memorySound_writeWord {s : State} (h : MemorySound s.mem s.stored) {a : Word} (ha : aligned a = true)
    (v : Word) : MemorySound (s.writeWord a v).mem (s.writeWord a v).stored := by
  obtain ⟨wf, inSpace, storedWf, words⟩ := h
  have kept : ∀ b ∈ s.stored, b % 4 = 0 ∧ b < 2 ^ 32 ∧ ∀ k < 4, ((s.writeWord a v).mem.get (b + k)).isSome :=
    fun b hb =>
      have ⟨multiple, small, values⟩ := words b hb
      ⟨multiple, small, fun k hk => Memory.writeWord_isSome (values k hk) _ _ _⟩
  refine ⟨Memory.writeWord_wf wf _ _ _, Memory.writeWord_inSpace inSpace _ ha _, ?storedWf, ?words⟩
  case storedWf =>
    rw [State.writeWord_stored]
    split
    · exact AddrSet.insert_wf storedWf _
    · exact storedWf
  case words =>
    intro b hb
    rw [State.writeWord_stored] at hb
    split at hb
    · rcases (AddrSet.mem_insert ..).1 hb with rfl | hb
      · exact ⟨(aligned_iff a).1 ha, a.isLt, fun k hk => Memory.writeWord_isSome_inside _ _ _ _ hk⟩
      · exact kept b hb
    · exact kept b hb

theorem memorySound_writeWords {s : State} (h : MemorySound s.mem s.stored) (ws : List (Word × Word)) :
    MemorySound (s.writeWords ws).mem (s.writeWords ws).stored :=
  State.writeWords_induct (P := fun u => MemorySound u.mem u.stored) ws s h
    fun _ _ v ha _ hu => memorySound_writeWord hu ha v

/-! ## How a step ends -/

theorem sound_advance {s : State} (hzero : s.gpr[0] = 0) (hmem : MemorySound s.mem s.stored) : Sound s.advance :=
  (sound_iff _).2 ⟨hzero, hmem, fun _ => rfl⟩

/-- In a delay slot `npc` is free. -/
theorem sound_branchIf {s : State} (hzero : s.gpr[0] = 0) (hmem : MemorySound s.mem s.stored) (c : Bool)
    (target : Word) : Sound (s.branchIf c target) := by
  rw [sound_iff]
  simp [hzero, hmem]

theorem sound_atHandler {k : ExcKind} {s t : State} (hs : Sound s) (h : AtHandler k s t) : Sound t := by
  obtain ⟨hzero, hmem, -⟩ := (sound_iff s).1 hs
  obtain ⟨a, -, rfl⟩ := h
  exact (sound_iff _).2 ⟨hzero, hmem, fun _ => rfl⟩

theorem sound_cop0Control {s : State} (hzero : s.gpr[0] = 0) (hmem : MemorySound s.mem s.stored) (c : Cop0Control) :
    Sound (s.cop0Control c) := by
  rw [sound_iff]
  refine ⟨by simpa using hzero, by simpa using hmem, ?_⟩
  cases c with
  | goOn => exact fun _ => rfl
  | goTo a => exact fun _ => rfl
  | goToSlot a target => intro outside; cases outside

theorem sound_applyCop0 {s : State} (hs : Sound s) (e : Cop0Effect) : Sound (s.applyCop0 e) := by
  obtain ⟨-, hmem, -⟩ := (sound_iff s).1 hs
  unfold State.applyCop0
  apply sound_cop0Control
  · simp
  · exact memorySound_writeWords hmem e.writes

/-! ## Every step -/

theorem Plan.completes_sound {p : Plan} {s t : State} (hs : Sound s) (h : p.Completes s t) : Sound t := by
  obtain ⟨hzero, hmem, -⟩ := (sound_iff s).1 hs
  have written : ∀ r v, Sound (s.writeGpr r v).advance := fun r v =>
    sound_advance (State.writeGpr_zeroCell hzero r v) (by simpa using hmem)
  have writtenC0 : ∀ r v, Sound (s.writeC0 r v).advance := fun r v =>
    sound_advance (by simpa using hzero) (by simpa using hmem)
  cases p with
  | write r v => cases h; exact written r v
  | checked overflow r v =>
    cases overflow with
    | true => exact sound_atHandler hs h
    | false => cases h; exact written r v
  | writeHiLo hi lo => cases h; exact sound_advance hzero hmem
  | writeC0 r v => cases h; exact writtenC0 r v
  | load r ea => obtain ⟨a, v, -, -, rfl⟩ := h; exact written r v
  | loadC0 r ea => obtain ⟨a, v, -, -, rfl⟩ := h; exact writtenC0 r v
  | store ea v =>
    obtain ⟨a, ha, rfl⟩ := h
    exact sound_advance hzero (memorySound_writeWord hmem (dataAddress_ok ha).1 v)
  | jump forbidden taken link target =>
    obtain ⟨-, -, rfl⟩ := h
    exact sound_branchIf (State.link_zeroCell hzero ..) (by simpa using hmem) ..
  | trap k => exact sound_atHandler hs h
  | operate f =>
    rcases h with ⟨k, -, entered⟩ | ⟨e, -, rfl⟩
    · exact sound_atHandler hs entered
    · exact sound_applyCop0 hs e

theorem sound_passBoundary {s : State} (h : Sound s) : Sound s.passBoundary := h

/-- All a step can complete with: trap entry, or the plan of the instruction fetched. -/
theorem completes_of_step {s t : State} (h : step s = .next t) :
    (∃ k, AtHandler k s.passBoundary t) ∨ ∃ i, (planOf s.passBoundary i).Completes s.passBoundary t := by
  rcases step_cases s with ⟨n, -, e⟩ | ⟨-, ⟨r, -, e⟩ | ⟨w, i, -, -, e⟩ | ⟨w, d, -, -, e⟩⟩
  · exact .inl ⟨_, takeException_next (e.symm.trans h)⟩
  · exact absurd (e.symm.trans h) (by simp)
  · exact .inr ⟨i, completes_of_exec (e.symm.trans h)⟩
  · exact .inl ⟨_, takeException_next (reservedWord_next (e.symm.trans h)).2⟩

theorem step_keeps_sound {s t : State} (hs : Sound s) (h : step s = .next t) : Sound t := by
  rcases completes_of_step h with ⟨k, entered⟩ | ⟨i, completed⟩
  · exact sound_atHandler (sound_passBoundary hs) entered
  · exact Plan.completes_sound (sound_passBoundary hs) completed

/-- Settles O47. -/
theorem stepKeepsTheInvariant : Obligations.StepKeepsTheInvariant := fun _ _ => step_keeps_sound

/-! ## The parameters, and every run -/

theorem atHandler_cfg_interrupts {k : ExcKind} {s t : State} (h : AtHandler k s t) :
    t.cfg = s.cfg ∧ t.interrupts = s.interrupts := by
  obtain ⟨a, -, rfl⟩ := h
  exact ⟨rfl, rfl⟩

/-- No plan changes the parameters or the arrivals. -/
theorem Plan.completes_cfg_interrupts {p : Plan} {s t : State} (h : p.Completes s t) :
    t.cfg = s.cfg ∧ t.interrupts = s.interrupts := by
  cases p with
  | write r v => cases h; simp
  | checked overflow r v =>
    cases overflow with
    | true => exact atHandler_cfg_interrupts h
    | false => cases h; simp
  | writeHiLo hi lo => cases h; exact ⟨rfl, rfl⟩
  | writeC0 r v => cases h; simp
  | load r ea => obtain ⟨a, v, -, -, rfl⟩ := h; simp
  | loadC0 r ea => obtain ⟨a, v, -, -, rfl⟩ := h; simp
  | store ea v => obtain ⟨a, -, rfl⟩ := h; exact ⟨rfl, rfl⟩
  | jump forbidden taken link target => obtain ⟨-, -, rfl⟩ := h; simp
  | trap k => exact atHandler_cfg_interrupts h
  | operate f =>
    rcases h with ⟨k, -, entered⟩ | ⟨e, -, rfl⟩
    · exact atHandler_cfg_interrupts entered
    · simp

theorem step_cfg {s t : State} (h : step s = .next t) : t.cfg = s.cfg := by
  rcases completes_of_step h with ⟨k, entered⟩ | ⟨i, completed⟩
  · exact (atHandler_cfg_interrupts entered).1.trans s.passBoundary_cfg
  · exact (Plan.completes_cfg_interrupts completed).1.trans s.passBoundary_cfg

/-- What every completed step keeps holds of the state any run comes to. -/
theorem runUntil_induct {P : State → Prop} (kept : ∀ s t, P s → step s = .next t → P t) (halt : State → Bool) (n : Nat)
    {s : State} (hs : P s) : P (runUntil halt n s).state := by
  induction n generalizing s with
  | zero =>
    simp only [runUntil]
    split <;> exact hs
  | succ n ih =>
    simp only [runUntil]
    split
    · exact hs
    · split
      next t h => exact ih (kept s t hs h)
      next => exact hs
      next => exact hs

/-- Settles O49. -/
theorem runKeepsTheInvariant : Obligations.RunKeepsTheInvariant := fun halt n s hs =>
  ⟨runUntil_induct (fun _ _ => step_keeps_sound) halt n hs,
    runUntil_induct (P := fun u => u.cfg = s.cfg) (fun _ _ hu h => (step_cfg h).trans hu) halt n rfl⟩

/-- Settles O48: nothing is stored yet, and `npc` is set from `pc`. -/
theorem invariantAtLaunch : Obligations.InvariantAtLaunch := by
  have launched : ∀ (c : Config) (image : Memory), image.wf → image.inSpace → Sound (State.launch c image) :=
    fun c image wf inSpace => (sound_iff _).2
      ⟨by simp [State.launch], ⟨wf, inSpace, .nil, fun a ha => by cases ha⟩, fun _ => rfl⟩
  exact ⟨launched, launched _ _ .nil fun c hc => by cases hc⟩

end Sys2Proof.Machine

/-! PROOFS. Words of memory read and written (spec/20_memory.md sections 1 and 2): a write is seen at its own address
only, and the byte order the words are kept in cannot be observed. -/

namespace Sys2Proof.Machine

/-! ## Reading a word after a write -/

theorem Memory.readWord_writeWord_same (m : Memory) (e : Endian) (a v : Word) :
    (m.writeWord e a v).readWord e a = some v := by
  simp [Memory.readWord, Memory.get_writeWord]

/-- A word depends on its own four bytes only. -/
theorem Memory.readWord_congr {m m' : Memory} {a : Word} (h : ∀ k < 4, m'.get (a.toNat + k) = m.get (a.toNat + k))
    (e : Endian) : m'.readWord e a = m.readWord e a := by
  have h0 := h 0 (by decide)
  rw [Nat.add_zero] at h0
  simp only [Memory.readWord, h0, h 1 (by decide), h 2 (by decide), h 3 (by decide)]

/-- Two different aligned words share no byte. -/
theorem Memory.readWord_writeWord_ne (m : Memory) (e : Endian) {a b : Word} (ha : a.toNat % 4 = 0)
    (hb : b.toNat % 4 = 0) (hne : b ≠ a) (v : Word) : (m.writeWord e a v).readWord e b = m.readWord e b := by
  have : b.toNat ≠ a.toNat := fun h => hne (BitVec.eq_of_toNat_eq h)
  exact Memory.readWord_congr (fun k hk => Memory.get_writeWord_outside m e a v (by omega)) e

theorem Memory.readWord_writeWord (m : Memory) (e : Endian) {a b : Word} (ha : a.toNat % 4 = 0)
    (hb : b.toNat % 4 = 0) (v : Word) :
    (m.writeWord e a v).readWord e b = if b = a then some v else m.readWord e b := by
  split
  next h => rw [h, Memory.readWord_writeWord_same]
  next h => exact Memory.readWord_writeWord_ne m e ha hb h v

/-- Settles O32. -/
theorem readAfterWrite : Obligations.ReadAfterWrite := fun m e _ _ v ha hb =>
  ⟨Memory.readWord_writeWord m e ha hb v, fun _ => Memory.get_writeWord_outside m e _ v⟩

/-! ## States alike but for the byte order -/

/-- The state with the byte order `e` and the memory `m`. -/
def State.reorder (s : State) (e : Endian) (m : Memory) : State :=
  { s with cfg := { s.cfg with endian := e }, mem := m }

theorem SameButByteOrder.exists_reorder {s t : State} (h : SameButByteOrder s t) : ∃ e m, t = s.reorder e m :=
  ⟨t.cfg.endian, t.mem, h.1⟩

/-- An update that reads and writes neither memory nor the parameters' byte order keeps two states alike. -/
theorem SameButByteOrder.map {s t : State} (h : SameButByteOrder s t) {f : State → State}
    (comm : ∀ e m, f (s.reorder e m) = (f s).reorder e m) (hmem : (f s).mem = s.mem) (hcfg : (f s).cfg = s.cfg) :
    SameButByteOrder (f s) (f t) := by
  obtain ⟨e, m, rfl⟩ := h.exists_reorder
  rw [comm]
  refine ⟨rfl, fun a ha => ?_⟩
  have words := h.2 a ha
  simp only [State.readWord, hmem, hcfg] at words ⊢
  exact words

theorem SameButByteOrder.writeGpr {s t : State} (h : SameButByteOrder s t) (r : RegNum) (v : Word) :
    SameButByteOrder (s.writeGpr r v) (t.writeGpr r v) :=
  h.map (f := (State.writeGpr · r v)) (fun e m => by unfold State.writeGpr; split <;> rfl) (by simp) (by simp)

theorem SameButByteOrder.writeC0 {s t : State} (h : SameButByteOrder s t) (r : RegNum) (v : Word) :
    SameButByteOrder (s.writeC0 r v) (t.writeC0 r v) := by
  refine h.map (f := (State.writeC0 · r v)) (fun e m => ?comm) (by simp) (by simp)
  case comm =>
    have access : (s.reorder e m).cfg.c0Access = s.cfg.c0Access := rfl
    cases hs : s.cfg.c0Access <;> simp only [State.writeC0, access, hs] <;> rfl

theorem SameButByteOrder.writeHiLo {s t : State} (h : SameButByteOrder s t) (hi lo : Option Word) :
    SameButByteOrder { s with hi := hi.getD s.hi, lo := lo.getD s.lo }
      { t with hi := hi.getD t.hi, lo := lo.getD t.lo } :=
  h.map (f := fun u => { u with hi := hi.getD u.hi, lo := lo.getD u.lo }) (fun _ _ => rfl) rfl rfl

theorem SameButByteOrder.advance {s t : State} (h : SameButByteOrder s t) : SameButByteOrder s.advance t.advance :=
  h.map (f := State.advance) (fun _ _ => rfl) rfl rfl

theorem SameButByteOrder.passBoundary {s t : State} (h : SameButByteOrder s t) :
    SameButByteOrder s.passBoundary t.passBoundary :=
  h.map (f := State.passBoundary) (fun _ _ => rfl) rfl rfl

theorem SameButByteOrder.branchIf {s t : State} (h : SameButByteOrder s t) (c : Bool) (a : Word) :
    SameButByteOrder (s.branchIf c a) (t.branchIf c a) :=
  h.map (f := (State.branchIf · c a)) (fun _ _ => by cases c <;> rfl) (by simp) (by simp)

theorem SameButByteOrder.link {s t : State} (h : SameButByteOrder s t) (c : Bool) (l : Option RegNum) :
    SameButByteOrder (s.link c l) (t.link c l) := by
  cases l with
  | none => exact h
  | some r =>
    have linked := h.writeGpr r (returnLink s.pc)
    obtain ⟨e, m, rfl⟩ := h.exists_reorder
    show SameButByteOrder (if c || s.cfg.linkOnNotTaken then s.writeGpr r (returnLink s.pc) else s)
      (if c || s.cfg.linkOnNotTaken then (s.reorder e m).writeGpr r (returnLink s.pc) else s.reorder e m)
    split
    · exact linked
    · exact h

/-- A store writes the same word in each byte order. -/
theorem SameButByteOrder.writeWord {s t : State} (h : SameButByteOrder s t) {a : Word} (ha : aligned a = true)
    (v : Word) : SameButByteOrder (s.writeWord a v) (t.writeWord a v) := by
  have multiple := (aligned_iff a).1 ha
  obtain ⟨e, m, rfl⟩ := h.exists_reorder
  refine ⟨rfl, fun b hb => ?_⟩
  have words : m.readWord e b = s.mem.readWord s.cfg.endian b := h.2 b hb
  show (m.writeWord e a v).readWord e b = (s.mem.writeWord s.cfg.endian a v).readWord s.cfg.endian b
  rw [Memory.readWord_writeWord _ _ multiple hb, Memory.readWord_writeWord _ _ multiple hb, words]

/-! ## What two such states read is the same -/

theorem SameButByteOrder.planOf_eq {s t : State} (h : SameButByteOrder s t) (i : Instr) : planOf t i = planOf s i := by
  obtain ⟨e, m, rfl⟩ := h.exists_reorder
  cases i <;> rfl

theorem SameButByteOrder.excRecord_eq {s t : State} (h : SameButByteOrder s t) (k : ExcKind) :
    t.excRecord k = s.excRecord k := by
  obtain ⟨e, m, rfl⟩ := h.exists_reorder
  rfl

theorem SameButByteOrder.dataAddress_eq {s t : State} (h : SameButByteOrder s t) (ea : Word) :
    dataAddress t.cfg ea = dataAddress s.cfg ea := by
  obtain ⟨e, m, rfl⟩ := h.exists_reorder
  rfl

theorem SameButByteOrder.loadWord_eq {s t : State} (h : SameButByteOrder s t) (ea : Word) :
    t.loadWord ea = s.loadWord ea := by
  rw [State.loadWord, State.loadWord, h.dataAddress_eq]
  cases ha : dataAddress s.cfg ea with
  | error r => rfl
  | ok a => simp only [h.2 a ((aligned_iff a).1 (dataAddress_ok ha).1)]

theorem SameButByteOrder.fetch_eq {s t : State} (h : SameButByteOrder s t) : fetch t = fetch s := by
  have words := h.2 s.pc
  obtain ⟨e, m, rfl⟩ := h.exists_reorder
  by_cases ha : aligned s.pc = true
  · have same : (s.reorder e m).readWord (s.reorder e m).pc = s.readWord s.pc := words ((aligned_iff _).1 ha)
    unfold fetch
    rw [same]
    rfl
  · have refused : ∀ u : State, u.pc = s.pc → fetch u = .error .misalignedFetch := fun u hu => by
      simp [fetch, hu, ha]
    rw [refused s rfl, refused (s.reorder e m) rfl]

/-! ## Alike steps -/

/-- The two outcomes are alike: the same fault or refusal, or next states alike but for the byte order. -/
abbrev AlikeOutcomes : Result → Result → Prop := OutcomesRelated SameButByteOrder

theorem alikeOutcomes_finish_map {g g' : Word → State} (x : Except Refusal Word)
    (h : ∀ v, SameButByteOrder (g v) (g' v)) : AlikeOutcomes (State.finish (x.map g)) (State.finish (x.map g')) := by
  cases x with
  | error r => rfl
  | ok v => exact (h v).advance

theorem SameButByteOrder.takeException {s t : State} (h : SameButByteOrder s t) (terminal : s.cfg.trapEntry = .terminal)
    (k : ExcKind) : AlikeOutcomes (takeException s k) (takeException t k) := by
  have terminal' : t.cfg.trapEntry = .terminal := by rw [← terminal, h.1]
  rw [Machine.takeException, Machine.takeException, State.handlerAddress_none.2 terminal,
    State.handlerAddress_none.2 terminal', h.excRecord_eq]
  rfl

theorem SameButByteOrder.run {s t : State} (h : SameButByteOrder s t) (terminal : s.cfg.trapEntry = .terminal)
    (refuse : s.cfg.cop0Op = .refuse) (p : Plan) : AlikeOutcomes (p.run s) (p.run t) := by
  cases p with
  | write r v => exact (h.writeGpr r v).advance
  | checked overflow r v =>
    cases overflow with
    | true => exact h.takeException terminal _
    | false => exact (h.writeGpr r v).advance
  | writeHiLo hi lo => exact (h.writeHiLo hi lo).advance
  | writeC0 r v => exact (h.writeC0 r v).advance
  | load r ea =>
    rw [Plan.run, Plan.run, h.loadWord_eq]
    exact alikeOutcomes_finish_map _ (h.writeGpr r)
  | loadC0 r ea =>
    rw [Plan.run, Plan.run, h.loadWord_eq]
    exact alikeOutcomes_finish_map _ (h.writeC0 r)
  | store ea v =>
    rw [Plan.run, Plan.run, State.storeWord, State.storeWord, h.dataAddress_eq]
    cases ha : dataAddress s.cfg ea with
    | error r => rfl
    | ok a => exact (h.writeWord (dataAddress_ok ha).1 v).advance
  | jump forbidden taken link target =>
    have completed := (h.link taken link).branchIf taken target
    have bd : t.bd = s.bd := by rw [h.1]
    rw [Plan.run, Plan.run, State.outsideDelaySlot, State.outsideDelaySlot, bd]
    cases s.bd <;> cases forbidden
    case false.false => exact completed
    all_goals rfl
  | trap k => exact h.takeException terminal k
  | operate f =>
    have refuse' : t.cfg.cop0Op = .refuse := by rw [← refuse, h.1]
    rw [Plan.run, Plan.run, State.cop0Outcome, State.cop0Outcome, refuse, refuse']
    rfl

theorem SameButByteOrder.reservedWord {s t : State} (h : SameButByteOrder s t)
    (terminal : s.cfg.trapEntry = .terminal) :
    AlikeOutcomes (reservedWord s) (reservedWord t) := by
  have policy : t.cfg.reservedPolicy = s.cfg.reservedPolicy := by rw [h.1]
  rw [Machine.reservedWord, Machine.reservedWord, policy]
  cases s.cfg.reservedPolicy with
  | refuse => rfl
  | trap => exact h.takeException terminal _

theorem SameButByteOrder.stepInstruction {s t : State} (h : SameButByteOrder s t)
    (terminal : s.cfg.trapEntry = .terminal) (refuse : s.cfg.cop0Op = .refuse) :
    AlikeOutcomes (stepInstruction s) (stepInstruction t) := by
  rw [Machine.stepInstruction, Machine.stepInstruction, h.fetch_eq]
  cases fetch s with
  | error r => rfl
  | ok w =>
    cases hd : decode w with
    | ok i =>
      simp only [hd, exec_eq_run, h.planOf_eq]
      exact h.run terminal refuse _
    | error d =>
      simp only [hd]
      exact h.reservedWord terminal

/-- Settles O54: a step reads words, never their bytes, and writes the same word in each order. -/
theorem byteOrderIsNotObservable : Obligations.ByteOrderIsNotObservable := by
  intro s t h terminal refuse
  have arrival : t.arrival = s.arrival := by rw [h.1]; rfl
  rw [step, step, arrival]
  cases s.arrival with
  | some n => exact h.passBoundary.takeException terminal _
  | none => exact h.passBoundary.stepInstruction terminal refuse

end Sys2Proof.Machine

/-! PROOFS. Taking an exception, and the cycle of a step (spec/10_state.md section 5, spec/60_exceptions.md sections 3
and 5). -/

namespace Sys2Proof.Machine

/-! ## Taking an exception (R319, R320) -/

theorem excRecord_eq_recordOf (s : State) (k : ExcKind) : s.excRecord k = recordOf k s := rfl

theorem entersHandler_enterHandler (a : Word) (r : ExcRecord) (s : State) :
    EntersHandler a r s (s.enterHandler a r) :=
  ⟨rfl, rfl, rfl, fun _ => rfl, rfl, rfl, ⟨fun _ => rfl, rfl⟩, rfl, rfl, rfl⟩

theorem takeException_terminal {s : State} (h : s.cfg.trapEntry = .terminal) (k : ExcKind) :
    takeException s k = .fault (.trapped (recordOf k s)) := by
  rw [takeException, State.handlerAddress_none.2 h, excRecord_eq_recordOf]

theorem takeException_handler {s : State} {k : ExcKind} {a : Word} (h : HandlerAt s (recordOf k s) a) :
    takeException s k = .next (s.enterHandler a (recordOf k s)) := by
  rw [takeException, excRecord_eq_recordOf, State.handlerAddress_some.2 h]

theorem raises_takeException (s : State) (k : ExcKind) : Raises k s (takeException s k) :=
  ⟨fun h => takeException_terminal h k, fun _ h => ⟨_, takeException_handler h, entersHandler_enterHandler ..⟩⟩

/-- Settles O44. -/
theorem takingAnException : Obligations.TakingAnException := raises_takeException

theorem exec_brk (c : BitVec 20) (s : State) : exec (.brk c) s = takeException s .breakpoint := rfl

theorem exec_syscall (c : BitVec 20) (s : State) : exec (.syscall c) s = takeException s .systemCall := rfl

/-- Settles O42. -/
theorem breakAndSyscallRaise : Obligations.BreakAndSyscallRaise := by
  intro c s
  rw [exec_brk, exec_syscall]
  exact ⟨raises_takeException s .breakpoint, raises_takeException s .systemCall⟩

/-- Taking an exception completes at the handler, with the registers and memory as they were. -/
theorem exists_at_handler {s : State} {k : ExcKind} {a : Word} (h : HandlerAt s (recordOf k s) a) :
    ∃ t, takeException s k = .next t ∧ t.pc = a ∧ t.npc = a + 4 ∧ t.bd = false ∧ SameGprs s t ∧ t.hi = s.hi ∧
      t.lo = s.lo ∧ SameMemory s t := by
  obtain ⟨t, taken, hpc, hnpc, hbd, gprs, hhi, hlo, memory, -⟩ := (raises_takeException s k).2 a h
  exact ⟨t, taken, hpc, hnpc, hbd, gprs, hhi, hlo, memory⟩

/-- Settles O43. -/
theorem breakAndSyscallReachTheHandler : Obligations.BreakAndSyscallReachTheHandler := by
  intro c s a b ha hb
  rw [exec_brk, exec_syscall]
  exact ⟨exists_at_handler ha, exists_at_handler hb⟩

/-! ## The fetch (R35 steps 1 to 4) -/

theorem aligned_eq_false {a : Word} (h : a.toNat % 4 ≠ 0) : aligned a = false := by
  rw [Bool.eq_false_iff, Ne, aligned_iff]
  exact h

/-- The program has not stored the word at `a`, or a fetch may see what it stored (R70). -/
theorem not_refused_as_stored {s : State} {a : Word} (h : s.cfg.smcPolicy = .coherent ∨ a.toNat ∉ s.stored) :
    ¬(s.cfg.smcPolicy = .refuse ∧ s.stored.has a.toNat = true) := by
  rintro ⟨refuse, stored⟩
  rcases h with coherent | fresh
  · simp [coherent] at refuse
  · exact fresh ((AddrSet.has_iff ..).1 stored)

theorem fetch_misaligned {s : State} (h : s.pc.toNat % 4 ≠ 0) : fetch s = .error .misalignedFetch := by
  simp [fetch, aligned_eq_false h]

theorem fetch_unmapped {s : State} (h : s.pc.toNat % 4 = 0) (hm : mapped s.cfg s.pc = false) :
    fetch s = .error .unmappedFetch := by
  simp [fetch, (aligned_iff s.pc).2 h, hm]

theorem fetch_stored {s : State} (h : s.pc.toNat % 4 = 0) (hm : mapped s.cfg s.pc = true)
    (refuse : s.cfg.smcPolicy = .refuse) (stored : s.pc.toNat ∈ s.stored) : fetch s = .error .fetchOfStoredWord := by
  simp [fetch, (aligned_iff s.pc).2 h, hm, refuse, stored]

theorem fetch_unwritten {s : State} (h : s.pc.toNat % 4 = 0) (hm : mapped s.cfg s.pc = true)
    (fresh : s.cfg.smcPolicy = .coherent ∨ s.pc.toNat ∉ s.stored) (hw : s.readWord s.pc = none) :
    fetch s = .error .unwrittenRead := by
  unfold fetch
  rw [if_neg (by simp [(aligned_iff s.pc).2 h]), if_neg (by simp [hm]), if_neg (not_refused_as_stored fresh), hw]

theorem fetch_word {s : State} {w : Word} (h : s.pc.toNat % 4 = 0) (hm : mapped s.cfg s.pc = true)
    (fresh : s.cfg.smcPolicy = .coherent ∨ s.pc.toNat ∉ s.stored) (hw : s.readWord s.pc = some w) :
    fetch s = .ok w :=
  fetch_of ((aligned_iff s.pc).2 h) hm (not_refused_as_stored fresh) hw

/-! ## The step -/

theorem step_of_no_arrival {s : State} (h : s.arrival = none) : step s = stepInstruction s.passBoundary := by
  rw [step, h]

theorem step_of_fetch_error {s : State} (h : s.arrival = none) {r : Refusal} (hf : fetch s.passBoundary = .error r) :
    step s = .refused r := by
  rw [step_of_no_arrival h, stepInstruction, hf]

/-- Settles O7. -/
theorem stepRunsTheDecodedInstruction : Obligations.StepRunsTheDecodedInstruction := by
  intro s w i arrival multiple inMap fresh word decoded
  have fetched : fetch s.passBoundary = .ok w := fetch_word (s := s.passBoundary) multiple inMap fresh word
  rw [step_of_no_arrival arrival, stepInstruction, fetched]
  simp only [decoded]
  rfl

/-- Settles O9. -/
theorem stepRefusesTheFetch : Obligations.StepRefusesTheFetch := fun s arrival =>
  ⟨fun h => step_of_fetch_error arrival (fetch_misaligned (s := s.passBoundary) h),
    fun h hm => step_of_fetch_error arrival (fetch_unmapped (s := s.passBoundary) h hm),
    fun h hm refuse stored => step_of_fetch_error arrival (fetch_stored (s := s.passBoundary) h hm refuse stored),
    fun h hm fresh hw => step_of_fetch_error arrival (fetch_unwritten (s := s.passBoundary) h hm fresh hw)⟩

/-- With no arrivals left a step boundary changes nothing. -/
theorem passBoundary_of_no_interrupts {s : State} (h : s.interrupts = []) : s.passBoundary = s := by
  cases s
  cases h
  rfl

/-- Settles O8. -/
theorem stepOfAReservedWord : Obligations.StepOfAReservedWord := by
  intro s w d quiet multiple inMap fresh word rejected
  have arrival : s.arrival = none := by rw [State.arrival, quiet]
  have reserved : step s = reservedWord s := by
    rw [step_of_no_arrival arrival, passBoundary_of_no_interrupts quiet, stepInstruction,
      fetch_word multiple inMap fresh word]
    simp only [rejected]
  rw [reserved, reservedWord]
  refine ⟨fun refuse => by rw [refuse], fun trap => ?_⟩
  rw [trap]
  exact raises_takeException s .reservedInstruction

/-- Settles O10. -/
theorem interruptIsTakenBetweenInstructions : Obligations.InterruptIsTakenBetweenInstructions := by
  intro s n rest due
  have taken : step s = takeException { s with interrupts := rest } (.interrupt n) := by
    rw [step, State.arrival, State.passBoundary, due]
    rfl
  rw [taken]
  exact raises_takeException _ _

/-! ## Launch -/

/-- Settles O55. -/
theorem launchState : Obligations.LaunchState := fun _ _ => ⟨rfl, rfl, rfl, rfl, rfl, rfl, fun _ => rfl⟩

end Sys2Proof.Machine

/-! PROOFS. What the tables of the spec say of an instruction (Safety.lean), said of its plan; and the statements over
all instructions, shape by shape. -/

namespace Sys2Proof.Machine

/-! ## Overflow and the conditions of the branches, as integers -/

theorem signImm_toInt (imm : BitVec 16) : (signImm imm).toInt = imm.toInt :=
  BitVec.toInt_signExtend_of_le (by decide)

theorem overflows_iff (n : Int) : overflows n = true ↔ outsideSigned n := by
  simp [overflows, outsideSigned]

theorem signBit_iff (a : Word) : signBit a = true ↔ a.toInt < 0 := by
  rw [signBit, ← BitVec.msb_eq_getLsbD_last, BitVec.msb_eq_toInt, decide_eq_true_iff]

theorem eq_zero_iff_toInt (a : Word) : a = 0 ↔ a.toInt = 0 := by
  rw [← BitVec.toInt_inj]
  rfl

theorem atLeastZero_iff (a : Word) : atLeastZero a = true ↔ 0 ≤ a.toInt := by
  rw [atLeastZero, Bool.not_eq_true', Bool.eq_false_iff, Ne, signBit_iff, Int.not_lt]

theorem belowZero_iff (a : Word) : belowZero a = true ↔ a.toInt < 0 := signBit_iff a

theorem aboveZero_iff (a : Word) : aboveZero a = true ↔ 0 < a.toInt := by
  rw [aboveZero, Bool.and_eq_true, Bool.not_eq_true', Bool.eq_false_iff, Ne, signBit_iff, bne_iff_ne, Ne,
    eq_zero_iff_toInt]
  omega

theorem atMostZero_iff (a : Word) : atMostZero a = true ↔ a.toInt ≤ 0 := by
  rw [atMostZero, Bool.or_eq_true, signBit_iff, beq_iff_eq, eq_zero_iff_toInt]
  omega

/-! ## The tables, read off the plan -/

/-- The plan is that of a branch or jump. -/
def Plan.isJump : Plan → Bool
  | .jump _ _ _ _ => true
  | _ => false

/-- The general register the plan can write; an operation of the coprocessor system aside. -/
def Plan.gpr : Plan → Option RegNum
  | .write r _ | .checked _ r _ | .load r _ => some r
  | .jump _ _ link _ => link
  | _ => none

/-- The exception the plan can raise; an operation of the coprocessor system aside. -/
def Plan.exception : Plan → Option ExcKind
  | .checked _ _ _ => some .integerOverflow
  | .trap k => some k
  | _ => none

/-- The plan raises its exception. -/
def Plan.raising : Plan → Prop
  | .checked overflow _ _ => overflow = true
  | .trap _ => True
  | _ => False

/-- The branch or jump is taken. -/
def Plan.taken : Plan → Prop
  | .jump _ taken _ _ => taken = true
  | _ => False

/-- The target of the branch or jump. -/
def Plan.target (s : State) : Plan → Word
  | .jump _ _ _ target => target
  | _ => s.npc + 4

def Plan.forbidden : Plan → Bool
  | .jump forbidden _ _ _ => forbidden
  | _ => false

def Plan.stores : Plan → Bool
  | .store _ _ => true
  | _ => false

def Plan.writesHi : Plan → Bool
  | .writeHiLo hi _ => hi.isSome
  | _ => false

def Plan.writesLo : Plan → Bool
  | .writeHiLo _ lo => lo.isSome
  | _ => false

def Plan.writesC0 : Plan → Bool
  | .writeC0 _ _ | .loadC0 _ _ | .operate _ => true
  | _ => false

/-- The operation is the user's function `Cop0Op`. -/
def Plan.isOpen (s : State) : Plan → Bool
  | .operate _ => s.cfg.cop0Op == .custom
  | _ => false

theorem isBranchOrJump_eq (s : State) (i : Instr) : isBranchOrJump i = (planOf s i).isJump := by cases i <;> rfl

theorem gprWritten_eq (s : State) (i : Instr) : gprWritten i = (planOf s i).gpr := by cases i <;> rfl

theorem exceptionOf_eq (s : State) (i : Instr) : exceptionOf i = (planOf s i).exception := by cases i <;> rfl

theorem storesToMemory_eq (s : State) (i : Instr) : storesToMemory i = (planOf s i).stores := by cases i <;> rfl

theorem writesHi_eq (s : State) (i : Instr) : writesHi i = (planOf s i).writesHi := by cases i <;> rfl

theorem writesLo_eq (s : State) (i : Instr) : writesLo i = (planOf s i).writesLo := by cases i <;> rfl

theorem writesC0_eq (s : State) (i : Instr) : writesC0 i = (planOf s i).writesC0 := by cases i <;> rfl

theorem isOpenOperation_eq (s : State) (i : Instr) : isOpenOperation s i = (planOf s i).isOpen s := by
  cases i <;> rfl

theorem target_eq (s : State) (i : Instr) : target s i = (planOf s i).target s := by cases i <;> rfl

theorem wellFormed_eq (s : State) (i : Instr) : i.wellFormed = !(planOf s i).forbidden := by cases i <;> rfl

/-- The overflow test of the model is the one on the exact integers (R121). -/
theorem raisesIn_iff (s : State) (i : Instr) : raisesIn s i ↔ (planOf s i).raising := by
  cases i with
  | add rd rs rt => exact (overflows_iff _).symm
  | addi rt rs imm => rw [raisesIn, ← signImm_toInt]; exact (overflows_iff _).symm
  | sub rd rs rt => exact (overflows_iff _).symm
  | _ => rfl

/-- The model's condition of each branch is the one on signed values (R203 to R210). -/
theorem taken_iff (s : State) (i : Instr) : taken s i ↔ (planOf s i).taken := by
  cases i with
  | beq rs rt o => exact beq_iff_eq.symm
  | bne rs rt o => exact bne_iff_ne.symm
  | bgez rs o => exact (atLeastZero_iff _).symm
  | bgezal rs o => exact (atLeastZero_iff _).symm
  | bgtz rs o => exact (aboveZero_iff _).symm
  | blez rs o => exact (atMostZero_iff _).symm
  | bltz rs o => exact (belowZero_iff _).symm
  | bltzal rs o => exact (belowZero_iff _).symm
  | j x => exact (iff_true_intro rfl).symm
  | jal x => exact (iff_true_intro rfl).symm
  | jr rs => exact (iff_true_intro rfl).symm
  | jalr rd rs => exact (iff_true_intro rfl).symm
  | _ => rfl

/-- An operation that is not the user's function raises nothing. -/
theorem State.cop0Outcome_ne_raises {s : State} (h : s.cfg.cop0Op ≠ .custom) (f : BitVec 21) (k : ExcKind) :
    s.cop0Outcome f ≠ .raises k := by
  rcases State.cop0Outcome_cases s f h with ⟨-, e⟩ | ⟨-, e⟩ <;> simp [e]

/-- The effect of an operation where `Cop0Op` is `perform` (R273). -/
def performEffect (f : BitVec 21) (s : State) : Cop0Effect where
  gpr := Config.cop0Gprs f s
  hi := s.hi
  lo := s.lo
  c0 := Config.cop0File f s
  writes := []
  control := .goOn

/-- An operation that is not the user's function completes with registers only, and the next instruction follows. -/
theorem Plan.operate_completes {f : BitVec 21} {s t : State} (hopen : (Plan.operate f).isOpen s = false)
    (h : (Plan.operate f).Completes s t) : t = s.applyCop0 (performEffect f s) := by
  have closed : s.cfg.cop0Op ≠ .custom := by simpa [Plan.isOpen] using hopen
  rcases h with ⟨k, raised, -⟩ | ⟨e, completed, rfl⟩
  · exact absurd raised (State.cop0Outcome_ne_raises closed f k)
  · rcases State.cop0Outcome_cases s f closed with ⟨-, refused⟩ | ⟨-, performed⟩
    · simp [refused] at completed
    · cases completed.symm.trans performed
      rfl

/-! ## Who writes what (R23, R25, R47) -/

theorem sameMemory_of_eq {s t : State} (hmem : t.mem = s.mem) (hstored : t.stored = s.stored) : SameMemory s t :=
  ⟨fun a => by rw [State.readByte, State.readByte, hmem], hstored⟩

theorem atHandler_frame {k : ExcKind} {s t : State} (h : AtHandler k s t) :
    t.gpr = s.gpr ∧ t.hi = s.hi ∧ t.lo = s.lo ∧ t.mem = s.mem ∧ t.stored = s.stored := by
  obtain ⟨a, -, rfl⟩ := h
  exact ⟨rfl, rfl, rfl, rfl, rfl⟩

/-- Memory, HI and LO change under the plans that write them only. -/
theorem Plan.completes_memory_hi_lo {p : Plan} {s t : State} (hopen : p.isOpen s = false) (h : p.Completes s t) :
    (p.stores = false → t.mem = s.mem ∧ t.stored = s.stored) ∧ (p.writesHi = false → t.hi = s.hi) ∧
    (p.writesLo = false → t.lo = s.lo) := by
  have ofHandler : ∀ {k}, AtHandler k s t → t.hi = s.hi ∧ t.lo = s.lo ∧ t.mem = s.mem ∧ t.stored = s.stored :=
    fun entered => (atHandler_frame entered).2
  cases p with
  | write r v => cases h; simp
  | checked overflow r v =>
    cases overflow with
    | true => simp [ofHandler h]
    | false => cases h; simp
  | writeHiLo hi lo => cases h; cases hi <;> cases lo <;> simp [writesHi, writesLo]
  | writeC0 r v => cases h; simp
  | load r ea => obtain ⟨a, v, -, -, rfl⟩ := h; simp
  | loadC0 r ea => obtain ⟨a, v, -, -, rfl⟩ := h; simp
  | store ea v => obtain ⟨a, -, rfl⟩ := h; simp [stores]
  | jump forbidden taken link target => obtain ⟨-, -, rfl⟩ := h; simp
  | trap k => simp [ofHandler h]
  | operate f => cases operate_completes hopen h; simp [performEffect, State.writeWords]

theorem Plan.completes_c0 {p : Plan} {s t : State} (hc0 : p.writesC0 = false) (quiet : ¬p.raising)
    (h : p.Completes s t) : t.c0 = s.c0 := by
  cases p with
  | write r v => cases h; simp
  | checked overflow r v =>
    cases overflow with
    | true => exact absurd rfl quiet
    | false => cases h; simp
  | writeHiLo hi lo => cases h; rfl
  | load r ea => obtain ⟨a, v, -, -, rfl⟩ := h; simp
  | store ea v => obtain ⟨a, -, rfl⟩ := h; rfl
  | jump forbidden taken link target => obtain ⟨-, -, rfl⟩ := h; simp
  | trap k => exact absurd trivial quiet
  | writeC0 r v | loadC0 r ea | operate f => cases hc0

/-- Settles O51. -/
theorem whoWritesWhat : Obligations.WhoWritesWhat := by
  intro i s t h
  have completed := completes_of_exec h
  rw [isOpenOperation_eq, storesToMemory_eq s, writesHi_eq s, writesLo_eq s, writesC0_eq s, raisesIn_iff]
  obtain ⟨cfg, interrupts⟩ := Plan.completes_cfg_interrupts completed
  refine ⟨cfg, interrupts, fun hopen => ?_, fun hc0 quiet => Plan.completes_c0 hc0 quiet completed⟩
  obtain ⟨memory, hi, lo⟩ := Plan.completes_memory_hi_lo hopen completed
  exact ⟨fun hstore => sameMemory_of_eq (memory hstore).1 (memory hstore).2, hi, lo⟩

theorem State.readGpr_writeGpr_ne (s : State) {q r : RegNum} (h : r ≠ q) (v : Word) :
    (s.writeGpr q v).readGpr r = s.readGpr r := by
  rw [State.readGpr_writeGpr, if_neg h]
  split
  next h0 => rw [h0, State.readGpr_zero]
  next => rfl

theorem State.readGpr_link_ne (s : State) (c : Bool) {l : Option RegNum} {r : RegNum} (h : l ≠ some r) :
    (s.link c l).readGpr r = s.readGpr r := by
  cases l with
  | none => rfl
  | some q =>
    have hne : r ≠ q := fun e => h (by rw [e])
    simp only [State.link]
    split
    · exact State.readGpr_writeGpr_ne s hne _
    · rfl

/-- No plan but an operation of the coprocessor system changes another register than its own. -/
theorem Plan.completes_readGpr {p : Plan} {s t : State} {r : RegNum} (hop : ∀ f, p ≠ .operate f) (hr : p.gpr ≠ some r)
    (h : p.Completes s t) : t.readGpr r = s.readGpr r := by
  have other : ∀ {q}, some q ≠ some r → r ≠ q := fun hq e => hq (by rw [e])
  cases p with
  | write q v => cases h; exact State.readGpr_writeGpr_ne s (other hr) v
  | checked overflow q v =>
    cases overflow with
    | true => exact State.readGpr_congr (atHandler_frame h).1 r
    | false => cases h; exact State.readGpr_writeGpr_ne s (other hr) v
  | writeHiLo hi lo => cases h; rfl
  | writeC0 q v => cases h; simp
  | load q ea => obtain ⟨a, v, -, -, rfl⟩ := h; exact State.readGpr_writeGpr_ne s (other hr) v
  | loadC0 q ea => obtain ⟨a, v, -, -, rfl⟩ := h; simp
  | store ea v => obtain ⟨a, -, rfl⟩ := h; rfl
  | jump forbidden taken link target =>
    obtain ⟨-, -, rfl⟩ := h
    rw [State.readGpr_branchIf]
    exact State.readGpr_link_ne s taken hr
  | trap k => exact State.readGpr_congr (atHandler_frame h).1 r
  | operate f => exact absurd rfl (hop f)

theorem cop0_of_planOf {s : State} {i : Instr} {f : BitVec 21} (h : planOf s i = .operate f) : i = .cop0 f := by
  cases i <;> cases h
  rfl

/-- Settles O52. -/
theorem whichGprIsWritten : Obligations.WhichGprIsWritten := by
  intro i s t r hcop0 h hr
  rw [gprWritten_eq s] at hr
  exact Plan.completes_readGpr (fun f hf => hcop0 f (cop0_of_planOf hf)) hr (completes_of_exec h)

/-! ## How the program counter advances (R34, R38) -/

theorem goesOn_advance (s : State) : GoesOn s s.advance := ⟨rfl, rfl, rfl⟩

theorem Plan.completes_jump {p : Plan} {s t : State} (hjump : p.isJump = true) (h : p.Completes s t) :
    t.pc = s.npc ∧ t.bd = true ∧ (p.taken → t.npc = p.target s) ∧ (¬p.taken → t.npc = s.npc + 4) := by
  cases p with
  | jump forbidden taken link target =>
    obtain ⟨-, -, rfl⟩ := h
    cases taken <;> simp [Plan.taken, Plan.target]
  | _ => cases hjump

theorem Plan.completes_goesOn {p : Plan} {s t : State} (hjump : p.isJump = false) (quiet : ¬p.raising)
    (hopen : p.isOpen s = false) (h : p.Completes s t) : GoesOn s t := by
  cases p with
  | write r v => cases h; simp [GoesOn]
  | checked overflow r v =>
    cases overflow with
    | true => exact absurd rfl quiet
    | false => cases h; simp [GoesOn]
  | writeHiLo hi lo => cases h; exact goesOn_advance _
  | writeC0 r v => cases h; simp [GoesOn]
  | load r ea => obtain ⟨a, v, -, -, rfl⟩ := h; simp [GoesOn]
  | loadC0 r ea => obtain ⟨a, v, -, -, rfl⟩ := h; simp [GoesOn]
  | store ea v => obtain ⟨a, -, rfl⟩ := h; exact goesOn_advance _
  | jump forbidden taken link target => cases hjump
  | trap k => exact absurd trivial quiet
  | operate f => cases operate_completes hopen h; exact goesOn_advance _

theorem Plan.completes_atHandler {p : Plan} {s t : State} (raised : p.raising) (h : p.Completes s t) :
    ∃ k, p.exception = some k ∧ AtHandler k s t := by
  cases p with
  | checked overflow r v => cases overflow <;> cases raised; exact ⟨_, rfl, h⟩
  | trap k => exact ⟨k, rfl, h⟩
  | _ => cases raised

/-- Settles O53. -/
theorem howThePcAdvances : Obligations.HowThePcAdvances := by
  intro i s t h
  have completed := completes_of_exec h
  rw [isBranchOrJump_eq s, raisesIn_iff, isOpenOperation_eq, taken_iff, target_eq, exceptionOf_eq s]
  refine ⟨fun hjump => Plan.completes_jump hjump completed,
    fun hjump quiet hopen => Plan.completes_goesOn hjump quiet hopen completed, fun raised => ?_⟩
  obtain ⟨k, exception, a, address, rfl⟩ := Plan.completes_atHandler raised completed
  exact ⟨k, a, exception, State.handlerAddress_some.1 address, rfl, rfl, rfl⟩

/-- A plan of a branch or jump that completes was executed outside a delay slot, was not UNPREDICTABLE, and left the
link and where control goes. -/
theorem Plan.completes_of_isJump {p : Plan} {s t : State} (hjump : p.isJump = true) (h : p.Completes s t) :
    ∃ c l a, p = .jump false c l a ∧ s.bd = false ∧ t = (s.link c l).branchIf c a := by
  cases p with
  | jump forbidden c l a =>
    obtain ⟨outside, rfl, ht⟩ := h
    exact ⟨c, l, a, rfl, outside, ht⟩
  | _ => cases hjump

theorem completes_of_branch {b : Instr} {s t : State} (hb : isBranchOrJump b = true) (h : exec b s = .next t) :
    ∃ c l a, planOf s b = .jump false c l a ∧ s.bd = false ∧ t = (s.link c l).branchIf c a :=
  Plan.completes_of_isJump (isBranchOrJump_eq s b ▸ hb) (completes_of_exec h)

/-- Settles O28: the delay slot is at `npc`, which the invariant makes `pc + 4`, and what follows it is the `npc` the
branch left. -/
theorem delaySlotThenTarget : Obligations.DelaySlotThenTarget := by
  intro b i s t u hs hb branched hi harmless hopen executed
  obtain ⟨-, -, -, -, outside, -⟩ := completes_of_branch hb branched
  obtain ⟨tpc, tbd, tnpc, tnpc'⟩ := (howThePcAdvances b s t branched).1 hb
  have quiet : ¬raisesIn t i := fun raised => by
    obtain ⟨k, -, exception, -⟩ := (howThePcAdvances i t u executed).2.2 raised
    simp [harmless] at exception
  obtain ⟨upc, unpc, ubd⟩ := (howThePcAdvances i t u executed).2.1 hi quiet hopen
  have slot : s.npc = s.pc + 4 := ((sound_iff s).1 hs).2.2 outside
  refine ⟨tpc.trans slot, tbd, fun htaken => upc.trans (tnpc htaken), fun hnot => ?_, by rw [unpc, upc], ubd⟩
  rw [upc, tnpc' hnot, slot, BitVec.add_assoc]
  rfl

/-! ## A trap in the delay slot (R324) -/

/-- Settles O46: the delay slot is at `pc + 4` with `bd` set, so the record's restart address is four bytes back. -/
theorem trapInDelaySlotRestartsAtTheBranch : Obligations.TrapInDelaySlotRestartsAtTheBranch := by
  intro b s t u k hs hb branched trapped
  obtain ⟨c, l, target, planned, outside, ht⟩ := completes_of_branch hb branched
  have slot : s.npc = s.pc + 4 := ((sound_iff s).1 hs).2.2 outside
  have tpc : t.pc = s.pc + 4 := by rw [ht, State.branchIf_pc, State.link_npc, slot]
  have tbd : t.bd = true := by rw [ht, State.branchIf_bd]
  obtain ⟨a, -, rfl⟩ := takeException_next trapped
  refine ⟨?record, fun _ => rfl, ?link⟩
  case record =>
    rw [State.enterHandler_trapRec, excRecord_eq_recordOf, recordOf, tpc, tbd, if_pos rfl, BitVec.add_sub_cancel]
  case link =>
    rintro ⟨x, rfl⟩
    cases planned
    rw [State.readGpr_enterHandler, ht, State.readGpr_branchIf]
    exact State.readGpr_writeGpr s 31 31 _

/-! ## Executing a branch again (R213) -/

/-- Resumed at the branch, the machine is where it was. -/
theorem resumedAt_branchIf {s u : State} (hpc : u.pc = s.pc) (hnpc : u.npc = s.npc) (hbd : u.bd = s.bd) (c : Bool)
    (a : Word) : resumedAt (u.branchIf c a) s = u := by
  rw [resumedAt, ← hpc, ← hnpc, ← hbd]
  cases c <;> rfl

theorem State.writeGpr_writeGpr_same (s : State) (r : RegNum) (v : Word) :
    (s.writeGpr r v).writeGpr r v = s.writeGpr r v := by
  unfold State.writeGpr
  by_cases h : r = 0
  · simp only [if_pos h]
  · simp only [if_neg h, Vector.set_set]

/-- Linking again writes the same address. -/
theorem State.link_link (s : State) (c : Bool) (l : Option RegNum) : (s.link c l).link c l = s.link c l := by
  cases l with
  | none => rfl
  | some r =>
    cases linked : c || s.cfg.linkOnNotTaken with
    | true =>
      simp only [State.link, linked, if_true, State.writeGpr_cfg, State.writeGpr_pc, State.writeGpr_writeGpr_same]
    | false => simp only [State.link, linked, Bool.false_eq_true, if_false]

/-- A branch or jump that is not UNPREDICTABLE does not read the register it links. -/
theorem planOf_link {s : State} {b : Instr} {c : Bool} {l : Option RegNum} {a : Word}
    (h : planOf s b = .jump false c l a) : planOf (s.link c l) b = .jump false c l a := by
  have unread : ∀ {r q : RegNum}, r ≠ q → (s.link c (some q)).readGpr r = s.readGpr r := fun hne =>
    State.readGpr_link_ne s c fun e => hne (Option.some.inj e).symm
  cases b with
  | bgezal rs o | bltzal rs o =>
    obtain ⟨allowed, hc, rfl, rfl⟩ := Plan.jump.inj h
    simp only [planOf, allowed, unread (bne_iff_ne.1 (Bool.not_eq_true' _ ▸ allowed)), hc, State.link_pc]
  | jalr rd rs =>
    obtain ⟨allowed, hc, rfl, rfl⟩ := Plan.jump.inj h
    simp only [planOf, allowed, unread (by simpa using allowed), hc, State.link_cfg]
  | jal x =>
    obtain ⟨-, rfl, rfl, rfl⟩ := Plan.jump.inj h
    simp only [planOf, State.link_pc]
  | beq rs rt o | bne rs rt o | bgez rs o | bgtz rs o | blez rs o | bltz rs o | j x | jr rs =>
    obtain ⟨-, -, rfl, -⟩ := Plan.jump.inj h
    exact h
  | _ => cases h

/-- Settles O29: the link is all a branch leaves, it is not among the registers read again, and linking twice is
linking once. -/
theorem branchesAreReexecutable : Obligations.BranchesAreReexecutable := by
  intro b s t hb branched
  obtain ⟨c, l, a, planned, outside, rfl⟩ := completes_of_branch hb branched
  rw [resumedAt_branchIf (State.link_pc ..) (State.link_npc ..) (State.link_bd ..), exec_eq_run, planOf_link planned,
    Plan.run, State.outsideDelaySlot, State.link_bd, outside, unlessUnpredictable, State.link_link]
  rfl

end Sys2Proof.Machine

/-! PROOFS. Which instructions raise and which are refused, for what reason (spec/60_exceptions.md sections 1 and 2,
spec/10_state.md section 5); the alignment of `pc` and `npc`; and the instructions that change nothing. -/

namespace Sys2Proof.Machine

/-! ## Raising (R310) -/

theorem Plan.run_ne_fault {p : Plan} {s : State} (silent : p.exception = none) (hopen : p.isOpen s = false)
    (f : Fault) : p.run s ≠ .fault f := by
  intro h
  cases p with
  | write r v | writeHiLo hi lo | writeC0 r v => cases h
  | load r ea | loadC0 r ea | store ea v => exact State.finish_ne_fault _ f h
  | checked overflow r v | trap k => cases silent
  | jump forbidden taken link target =>
    rw [Plan.run, State.outsideDelaySlot, unlessUnpredictable] at h
    cases hbd : s.bd <;> cases forbidden <;> rw [hbd] at h <;> cases h
  | operate n =>
    have closed : s.cfg.cop0Op ≠ .custom := by simpa [Plan.isOpen] using hopen
    rcases State.finishCop0_cases s (s.cop0Outcome n) with ⟨-, e⟩ | ⟨k, raised, -⟩ | ⟨effect, -, e⟩
    · cases e.symm.trans h
    · exact State.cop0Outcome_ne_raises closed n k raised
    · cases e.symm.trans h

theorem Plan.completes_trapRec {p : Plan} {s t : State} (quiet : ¬p.raising) (hopen : p.isOpen s = false)
    (h : p.Completes s t) : t.trapRec = s.trapRec := by
  cases p with
  | write r v => cases h; simp
  | checked overflow r v =>
    cases overflow with
    | true => exact absurd rfl quiet
    | false => cases h; simp
  | writeHiLo hi lo => cases h; rfl
  | writeC0 r v => cases h; simp
  | load r ea => obtain ⟨a, v, -, -, rfl⟩ := h; simp
  | loadC0 r ea => obtain ⟨a, v, -, -, rfl⟩ := h; simp
  | store ea v => obtain ⟨a, -, rfl⟩ := h; rfl
  | jump forbidden taken link target => obtain ⟨-, -, rfl⟩ := h; simp
  | trap k => exact absurd trivial quiet
  | operate f => cases operate_completes hopen h; simp

theorem Plan.raises_of_raising {p : Plan} {s : State} {k : ExcKind} (hk : p.exception = some k) (raised : p.raising) :
    Raises k s (p.run s) := by
  cases p with
  | checked overflow r v => cases overflow <;> cases raised; cases hk; exact raises_takeException s _
  | trap k' => cases hk; exact raises_takeException s _
  | _ => cases raised

theorem Plan.next_of_not_raising {p : Plan} {s : State} {k : ExcKind} (hk : p.exception = some k)
    (quiet : ¬p.raising) : ∃ t, p.run s = .next t ∧ t.trapRec = s.trapRec := by
  cases p with
  | checked overflow r v =>
    cases overflow with
    | true => exact absurd rfl quiet
    | false => exact ⟨_, rfl, by simp⟩
  | trap k' => exact absurd trivial quiet
  | _ => cases hk

/-- A plan with no exception raises none. -/
theorem Plan.not_raising_of_no_exception {p : Plan} (h : p.exception = none) : ¬p.raising := by
  cases p with
  | checked overflow r v | trap k => cases h
  | _ => exact not_false

/-- Settles O45. -/
theorem onlyFiveInstructionsRaise : Obligations.OnlyFiveInstructionsRaise := by
  intro i s
  rw [exceptionOf_eq s, isOpenOperation_eq, raisesIn_iff, exec_eq_run]
  refine ⟨fun silent hopen => ⟨Plan.run_ne_fault silent hopen, fun t h => ?_⟩,
    fun k hk => ⟨Plan.raises_of_raising hk, Plan.next_of_not_raising hk⟩⟩
  exact Plan.completes_trapRec (Plan.not_raising_of_no_exception silent) hopen (Plan.completes_of_run h)

/-! ## Refusals (R36, R211, R236, R251, R273) -/

theorem Plan.run_in_delay_slot {p : Plan} {s : State} (hjump : p.isJump = true) (hbd : s.bd = true) :
    p.run s = .refused .branchInDelaySlot := by
  cases p with
  | jump forbidden taken link target => rw [Plan.run, State.outsideDelaySlot, if_pos hbd]
  | _ => cases hjump

theorem Plan.run_forbidden {p : Plan} {s : State} (hforbidden : p.forbidden = true) (hbd : s.bd = false) :
    p.run s = .refused .unpredictable := by
  cases p with
  | jump forbidden taken link target =>
    cases hforbidden
    rw [Plan.run, State.outsideDelaySlot, hbd]
    rfl
  | _ => cases hforbidden

/-- Settles O26. -/
theorem branchInDelaySlotIsRefused : Obligations.BranchInDelaySlotIsRefused := fun i s hb hbd => by
  rw [exec_eq_run]
  exact Plan.run_in_delay_slot (isBranchOrJump_eq s i ▸ hb) hbd

theorem exec_of_not_wellFormed {i : Instr} {s : State} (h : i.wellFormed = false) (hbd : s.bd = false) :
    exec i s = .refused .unpredictable := by
  rw [exec_eq_run]
  exact Plan.run_forbidden (by simpa [wellFormed_eq s] using h) hbd

/-- The REGIMM word with `rs = 31`, its three upper fields as one. -/
theorem layoutRI_eq_append (rs sel : BitVec 5) (o : BitVec 16) :
    layoutRI rs sel o = (0b000001#6 ++ rs ++ sel) ++ o := rfl

/-- Settles O25. -/
theorem unpredictableFormsAreRefused : Obligations.UnpredictableFormsAreRefused := by
  refine ⟨fun o => ⟨layoutRI_eq_append 31 0b10001 o, layoutRI_eq_append 31 0b10000 o⟩, fun s hbd => ⟨fun o => ?_,
    fun o => ?_, fun r => ?_⟩⟩
  · exact exec_of_not_wellFormed rfl hbd
  · exact exec_of_not_wellFormed rfl hbd
  · exact exec_of_not_wellFormed (by simp [Instr.wellFormed]) hbd

theorem dataAddress_error_reason {c : Config} {ea : Word} {q : Refusal} (h : dataAddress c ea = .error q) :
    q = .misalignedData ∨ q = .unmappedAccess :=
  (dataAddress_error h).imp And.left And.left

theorem loadWord_error_reason {s : State} {ea : Word} {q : Refusal} (h : s.loadWord ea = .error q) :
    (q = .misalignedData ∨ q = .unmappedAccess) ∨ q = .unwrittenRead :=
  (State.loadWord_error h).imp dataAddress_error_reason And.left

theorem State.finish_map_refused {x : Except Refusal Word} {g : Word → State} {q : Refusal}
    (h : State.finish (x.map g) = .refused q) : x = .error q := by
  cases x with
  | error r => cases h; rfl
  | ok v => cases h

/-- Why a plan can be refused. -/
def Plan.RefusedFor (s : State) (q : Refusal) : Plan → Prop
  | .load _ _ | .loadC0 _ _ => (q = .misalignedData ∨ q = .unmappedAccess) ∨ q = .unwrittenRead
  | .store _ _ => q = .misalignedData ∨ q = .unmappedAccess
  | .jump forbidden _ _ _ =>
    (q = .branchInDelaySlot ∧ s.bd = true) ∨ (q = .unpredictable ∧ forbidden = true ∧ s.bd = false)
  | .operate _ => q = .cop0Operation
  | .write _ _ | .checked _ _ _ | .writeHiLo _ _ | .writeC0 _ _ | .trap _ => False

theorem Plan.refusedFor_of_run {p : Plan} {s : State} {q : Refusal} (h : p.run s = .refused q) :
    p.RefusedFor s q := by
  cases p with
  | write r v | writeHiLo hi lo | writeC0 r v => cases h
  | checked overflow r v =>
    cases overflow with
    | true => exact takeException_ne_refused _ _ _ h
    | false => cases h
  | load r ea => exact loadWord_error_reason (State.finish_map_refused h)
  | loadC0 r ea => exact loadWord_error_reason (State.finish_map_refused h)
  | store ea v => exact dataAddress_error_reason (State.storeWord_error (State.finish_refused h))
  | jump forbidden taken link target =>
    rw [Plan.run, State.outsideDelaySlot, unlessUnpredictable] at h
    cases hbd : s.bd with
    | true => rw [hbd] at h; cases h; exact .inl ⟨rfl, hbd⟩
    | false =>
      rw [hbd] at h
      cases forbidden <;> cases h
      exact .inr ⟨rfl, rfl, hbd⟩
  | trap k => exact takeException_ne_refused _ _ _ h
  | operate f =>
    rcases State.finishCop0_cases s (s.cop0Outcome f) with ⟨-, e⟩ | ⟨k, -, e⟩ | ⟨effect, -, e⟩
    · cases e.symm.trans h; rfl
    · exact absurd (e.symm.trans h) (takeException_ne_refused _ _ _)
    · cases e.symm.trans h

theorem lw_of_planOf {s : State} {i : Instr} {r : RegNum} {ea : Word} (h : planOf s i = .load r ea) :
    ∃ o base, i = .lw r o base := by
  cases i <;> cases h
  exact ⟨_, _, rfl⟩

theorem lwc0_of_planOf {s : State} {i : Instr} {r : RegNum} {ea : Word} (h : planOf s i = .loadC0 r ea) :
    ∃ o base, i = .lwc0 r o base := by
  cases i <;> cases h
  exact ⟨_, _, rfl⟩

theorem sw_or_swc0_of_planOf {s : State} {i : Instr} {ea v : Word} (h : planOf s i = .store ea v) :
    ∃ r o base, i = .sw r o base ∨ i = .swc0 r o base := by
  cases i <;> cases h
  · exact ⟨_, _, _, .inl rfl⟩
  · exact ⟨_, _, _, .inr rfl⟩

/-- Settles O57. -/
theorem whyAnInstructionIsRefused : Obligations.WhyAnInstructionIsRefused := by
  intro i s q h
  have reason := Plan.refusedFor_of_run (exec_eq_run i s ▸ h)
  cases planned : planOf s i with
  | load r ea =>
    rw [planned] at reason
    obtain ⟨o, base, rfl⟩ := lw_of_planOf planned
    rcases reason with address | unwritten
    · exact .inr (.inr (.inr (.inl ⟨address, r, o, base, .inl rfl⟩)))
    · exact .inr (.inr (.inr (.inr ⟨unwritten, r, o, base, .inl rfl⟩)))
  | loadC0 r ea =>
    rw [planned] at reason
    obtain ⟨o, base, rfl⟩ := lwc0_of_planOf planned
    rcases reason with address | unwritten
    · exact .inr (.inr (.inr (.inl ⟨address, r, o, base, .inr (.inr (.inl rfl))⟩)))
    · exact .inr (.inr (.inr (.inr ⟨unwritten, r, o, base, .inr rfl⟩)))
  | store ea v =>
    rw [planned] at reason
    obtain ⟨r, o, base, rfl | rfl⟩ := sw_or_swc0_of_planOf planned
    · exact .inr (.inr (.inr (.inl ⟨reason, r, o, base, .inr (.inl rfl)⟩)))
    · exact .inr (.inr (.inr (.inl ⟨reason, r, o, base, .inr (.inr (.inr rfl))⟩)))
  | jump forbidden taken link target =>
    rw [planned] at reason
    rw [isBranchOrJump_eq s, wellFormed_eq s, planned]
    rcases reason with ⟨hq, hbd⟩ | ⟨hq, hforbidden, hbd⟩
    · exact .inl ⟨hq, rfl, hbd⟩
    · exact .inr (.inl ⟨hq, by rw [Plan.forbidden, hforbidden]; rfl, hbd⟩)
  | operate f =>
    rw [planned] at reason
    exact .inr (.inr (.inl ⟨reason, f, cop0_of_planOf planned⟩))
  | write r v | checked overflow r v | writeHiLo hi lo | writeC0 r v | trap k =>
    rw [planned] at reason
    exact reason.elim

/-! ## The alignment of `pc` and `npc` (R32, R57) -/

theorem multiple_of_four_add_four {a : Word} (h : a.toNat % 4 = 0) : (a + 4).toNat % 4 = 0 := by
  rw [BitVec.toNat_add]
  simp only [BitVec.ofNat_eq_ofNat, BitVec.toNat_ofNat]
  omega

theorem registerTarget_multiple_of_four {c : Config} (h : c.misalignedFetch = .forceAlign) (v : Word) :
    (registerTarget c v).toNat % 4 = 0 := by
  rw [registerTarget, h]
  exact (aligned_iff _).1 (aligned_alignDown v)

theorem target_multiple_of_four {s : State} (hcfg : s.cfg.misalignedFetch = .forceAlign) (hs : AlignedPc s)
    (i : Instr) : (target s i).toNat % 4 = 0 := by
  obtain ⟨pc, npc⟩ := hs
  cases i with
  | beq _ _ o | bne _ _ o | bgez _ o | bgezal _ o | bgtz _ o | blez _ o | bltz _ o | bltzal _ o =>
    exact branchTarget_multiple_of_four pc o
  | j x | jal x => exact regionTarget_multiple_of_four s.pc x
  | jr rs | jalr rd rs => exact registerTarget_multiple_of_four hcfg _
  | _ => exact multiple_of_four_add_four npc

theorem GoesOn.alignedPc {s t : State} (h : GoesOn s t) (hs : AlignedPc s) : AlignedPc t := by
  obtain ⟨pc, npc, -⟩ := h
  exact ⟨pc ▸ hs.2, npc ▸ multiple_of_four_add_four hs.2⟩

/-- Every handler address is a multiple of 4 (R32). -/
def HandlersAligned (c : Config) : Prop :=
  (∀ a, c.trapEntry = .handler a → a.toNat % 4 = 0) ∧
  (c.trapEntry = .custom → ∀ u r, (Config.trapEntryPc u r).toNat % 4 = 0)

theorem AtHandler.alignedPc {k : ExcKind} {s t : State} (h : AtHandler k s t) (handlers : HandlersAligned s.cfg) :
    AlignedPc t := by
  obtain ⟨a, address, rfl⟩ := h
  have multiple : a.toNat % 4 = 0 := by
    rcases State.handlerAddress_some.1 address with named | ⟨custom, rfl⟩
    · exact handlers.1 a named
    · exact handlers.2 custom _ _
  exact ⟨multiple, multiple_of_four_add_four multiple⟩

theorem applyCop0_alignedPc {s : State} (hcfg : s.cfg.misalignedFetch = .forceAlign) (hs : AlignedPc s)
    (e : Cop0Effect) : AlignedPc (s.applyCop0 e) := by
  have registers : ∀ a, (registerTarget s.cfg a).toNat % 4 = 0 := registerTarget_multiple_of_four hcfg
  simp only [AlignedPc, State.applyCop0, State.cop0Control_pc, State.cop0Control_npc, State.writeGprs_npc,
    State.writeGprs_cfg, State.writeWords_npc, State.writeWords_cfg]
  cases e.control with
  | goOn => exact ⟨hs.2, multiple_of_four_add_four hs.2⟩
  | goTo a => exact ⟨registers a, multiple_of_four_add_four (registers a)⟩
  | goToSlot a slotTarget => exact ⟨registers a, registers slotTarget⟩

theorem exec_alignedPc {i : Instr} {s t : State} (hcfg : s.cfg.misalignedFetch = .forceAlign)
    (handlers : HandlersAligned s.cfg) (hs : AlignedPc s) (h : (planOf s i).Completes s t) : AlignedPc t := by
  have targeted := target_eq s i ▸ target_multiple_of_four hcfg hs i
  cases planned : planOf s i with
  | operate f =>
    rw [planned] at h
    rcases h with ⟨k, -, entered⟩ | ⟨e, -, rfl⟩
    · exact entered.alignedPc handlers
    · exact applyCop0_alignedPc hcfg hs e
  | jump forbidden taken link a =>
    rw [planned] at h targeted
    obtain ⟨pc, -, npc, npc'⟩ := Plan.completes_jump rfl h
    refine ⟨pc ▸ hs.2, ?_⟩
    by_cases c : (Plan.jump forbidden taken link a).taken
    · rw [npc c]; exact targeted
    · rw [npc' c]; exact multiple_of_four_add_four hs.2
  | write | checked | writeHiLo | writeC0 | load | loadC0 | store | trap =>
    rw [planned] at h
    by_cases raised : (planOf s i).raising
    · obtain ⟨k, -, entered⟩ := Plan.completes_atHandler (planned ▸ raised) h
      exact entered.alignedPc handlers
    · exact (Plan.completes_goesOn rfl (planned ▸ raised) rfl h).alignedPc hs

/-- Settles O50. -/
theorem pcStaysAligned : Obligations.PcStaysAligned := by
  intro s t hcfg named custom hs h
  rcases completes_of_step h with ⟨k, entered⟩ | ⟨i, completed⟩
  · exact entered.alignedPc ⟨named, custom⟩
  · exact exec_alignedPc (s := s.passBoundary) hcfg ⟨named, custom⟩ hs completed

/-! ## Instructions that change nothing (R21, R102) -/

theorem sameButPc_advance (s : State) : SameGprs s s.advance ∧ SameSpecial s s.advance ∧ SameMemory s s.advance ∧
    SameModel s s.advance ∧ GoesOn s s.advance :=
  ⟨fun _ => rfl, ⟨rfl, rfl, rfl⟩, sameMemory_of_eq rfl rfl, ⟨rfl, rfl, rfl⟩, goesOn_advance s⟩

theorem Plan.completes_of_gpr_zero {p : Plan} {s t : State} (hr : p.gpr = some 0) (hjump : p.isJump = false)
    (silent : p.exception = none) (h : p.Completes s t) : t = s.advance := by
  cases p with
  | write r v => cases hr; exact h
  | load r ea => cases hr; obtain ⟨a, v, -, -, ht⟩ := h; exact ht
  | checked overflow r v => cases silent
  | jump forbidden taken link target => cases hjump
  | _ => cases hr

/-- Settles O56: a write of `x[0]` is no write. -/
theorem destinationZeroIsANop : Obligations.DestinationZeroIsANop := by
  refine ⟨by decide, fun s => ⟨s.advance, rfl, sameButPc_advance s⟩, fun i s t hr hb silent h => ?_⟩
  rw [gprWritten_eq s] at hr
  rw [isBranchOrJump_eq s] at hb
  rw [exceptionOf_eq s] at silent
  obtain rfl := Plan.completes_of_gpr_zero hr hb silent (completes_of_exec h)
  exact sameButPc_advance s

end Sys2Proof.Machine

/-! PROOFS. Add, subtract and compare, the arithmetic of the shifts, and multiply (spec/40_arithmetic.md,
spec/42_shift.md section 1, spec/43_multiply_hilo.md). -/

namespace Sys2Proof.Machine

/-! ## Overflow (R121) -/

/-- The signed value of a sum is the exact sum, or that sum moved by 2^32 into range. -/
theorem toInt_add_cases (a b : Word) :
    (¬outsideSigned (a.toInt + b.toInt) ∧ (a + b).toInt = a.toInt + b.toInt) ∨
    (2 ^ 31 ≤ a.toInt + b.toInt ∧ (a + b).toInt = a.toInt + b.toInt - 2 ^ 32) ∨
    (a.toInt + b.toInt < -2 ^ 31 ∧ (a + b).toInt = a.toInt + b.toInt + 2 ^ 32) := by
  have := BitVec.le_toInt a; have := BitVec.toInt_lt (x := a)
  have := BitVec.le_toInt b; have := BitVec.toInt_lt (x := b)
  rw [BitVec.toInt_add, outsideSigned, Int.bmod_def]
  omega

theorem toInt_sub_cases (a b : Word) :
    (¬outsideSigned (a.toInt - b.toInt) ∧ (a - b).toInt = a.toInt - b.toInt) ∨
    (2 ^ 31 ≤ a.toInt - b.toInt ∧ (a - b).toInt = a.toInt - b.toInt - 2 ^ 32) ∨
    (a.toInt - b.toInt < -2 ^ 31 ∧ (a - b).toInt = a.toInt - b.toInt + 2 ^ 32) := by
  have := BitVec.le_toInt a; have := BitVec.toInt_lt (x := a)
  have := BitVec.le_toInt b; have := BitVec.toInt_lt (x := b)
  rw [BitVec.toInt_sub, outsideSigned, Int.bmod_def]
  omega

/-- Two sign bits are equal exactly when the signs are. -/
theorem signBit_eq_iff (a b : Word) : a.getLsbD 31 = b.getLsbD 31 ↔ (a.toInt < 0 ↔ b.toInt < 0) := by
  rw [Bool.eq_iff_iff]
  exact iff_congr (signBit_iff a) (signBit_iff b)

/-- Settles O11: a sum overflows when its operands have one sign and it has the other, a difference when its operands
have different signs and it has not the first one's. -/
theorem overflowBitTests : Obligations.OverflowBitTests := by
  intro a b
  have := BitVec.le_toInt a; have := BitVec.toInt_lt (x := a)
  have := BitVec.le_toInt b; have := BitVec.toInt_lt (x := b)
  refine ⟨?sum, ?difference, overflows_iff _, overflows_iff _⟩
  case sum =>
    rw [Ne, signBit_eq_iff, signBit_eq_iff]
    have := toInt_add_cases a b
    rw [outsideSigned] at this
    omega
  case difference =>
    rw [Ne, Ne, signBit_eq_iff, signBit_eq_iff]
    have := toInt_sub_cases a b
    rw [outsideSigned] at this
    omega

/-! ## Add and subtract: the value each writes -/

theorem ofInt_add_toInt (a b : Word) : BitVec.ofInt 32 (a.toInt + b.toInt) = a + b := by
  rw [BitVec.ofInt_add, BitVec.ofInt_toInt, BitVec.ofInt_toInt]

theorem ofInt_sub_toInt (a b : Word) : BitVec.ofInt 32 (a.toInt - b.toInt) = a - b := by
  apply BitVec.eq_of_toInt_eq
  rw [BitVec.toInt_ofInt, BitVec.toInt_sub]

theorem ofInt_add_imm (a : Word) (imm : BitVec 16) : BitVec.ofInt 32 (a.toInt + imm.toInt) = a + signImm imm := by
  rw [← signImm_toInt, ofInt_add_toInt]

theorem ofNat_add_toNat (a b : Word) : BitVec.ofNat 32 (a.toNat + b.toNat) = a + b := by
  rw [BitVec.ofNat_add, BitVec.ofNat_toNat, BitVec.ofNat_toNat, BitVec.setWidth_eq, BitVec.setWidth_eq]

/-- An instruction whose meaning is `State.writeAndAdvance` completes and writes its value only. -/
theorem exists_writesGprOnly {i : Instr} {s : State} {r : RegNum} {v : Word} (h : exec i s = s.writeAndAdvance r v) :
    ∃ t, exec i s = .next t ∧ WritesGprOnly r v s t :=
  ⟨_, h, writesGprOnly_writeGpr_advance s r v⟩

theorem exec_add (rd rs rt : RegNum) (s : State) : exec (.add rd rs rt) s =
    if addOverflow (s.readGpr rs) (s.readGpr rt) then takeException s .integerOverflow
    else s.writeAndAdvance rd (s.readGpr rs + s.readGpr rt) := rfl

theorem exec_addi (rt rs : RegNum) (imm : BitVec 16) (s : State) : exec (.addi rt rs imm) s =
    if addOverflow (s.readGpr rs) (signImm imm) then takeException s .integerOverflow
    else s.writeAndAdvance rt (s.readGpr rs + signImm imm) := rfl

theorem exec_sub (rd rs rt : RegNum) (s : State) : exec (.sub rd rs rt) s =
    if subOverflow (s.readGpr rs) (s.readGpr rt) then takeException s .integerOverflow
    else s.writeAndAdvance rd (s.readGpr rs - s.readGpr rt) := rfl

theorem not_overflows {n : Int} (lower : -2 ^ 31 ≤ n) (upper : n < 2 ^ 31) : ¬overflows n = true := by
  rw [overflows_iff, outsideSigned]
  omega

theorem overflows_of_outside {n : Int} (h : n < -2 ^ 31 ∨ 2 ^ 31 ≤ n) : overflows n = true := by
  rw [overflows_iff, outsideSigned]
  omega

/-- Settles O12. -/
theorem addAddiSubResult : Obligations.AddAddiSubResult := by
  intro rd rs rt imm s
  refine ⟨fun lower upper => ?add, fun lower upper => ?addi, fun lower upper => ?sub⟩
  case add =>
    rw [ofInt_add_toInt]
    exact exists_writesGprOnly ((exec_add ..).trans (if_neg (not_overflows lower upper)))
  case addi =>
    rw [ofInt_add_imm]
    rw [← signImm_toInt] at lower upper
    exact exists_writesGprOnly ((exec_addi ..).trans (if_neg (not_overflows lower upper)))
  case sub =>
    rw [ofInt_sub_toInt]
    exact exists_writesGprOnly ((exec_sub ..).trans (if_neg (not_overflows lower upper)))

/-- Settles O13. -/
theorem overflowRaises : Obligations.OverflowRaises := by
  intro rd rs rt imm s
  refine ⟨fun h => ?add, fun h => ?addi, fun h => ?sub⟩
  case add =>
    rw [exec_add, addOverflow, if_pos (overflows_of_outside h)]
    exact raises_takeException s _
  case addi =>
    rw [← signImm_toInt] at h
    rw [exec_addi, addOverflow, if_pos (overflows_of_outside h)]
    exact raises_takeException s _
  case sub =>
    rw [exec_sub, subOverflow, if_pos (overflows_of_outside h)]
    exact raises_takeException s _

theorem exec_addiu (rt rs : RegNum) (imm : BitVec 16) (s : State) :
    exec (.addiu rt rs imm) s = s.writeAndAdvance rt (s.readGpr rs + signImm imm) := rfl

theorem exec_addu (rd rs rt : RegNum) (s : State) :
    exec (.addu rd rs rt) s = s.writeAndAdvance rd (s.readGpr rs + s.readGpr rt) := rfl

theorem exec_subu (rd rs rt : RegNum) (s : State) :
    exec (.subu rd rs rt) s = s.writeAndAdvance rd (s.readGpr rs - s.readGpr rt) := rfl

/-- Settles O14. -/
theorem addiuAdduSubuResult : Obligations.AddiuAdduSubuResult := by
  intro rd rs rt imm s
  rw [ofInt_add_imm, ofNat_add_toNat, ofInt_sub_toInt]
  exact ⟨exists_writesGprOnly (exec_addiu ..), exists_writesGprOnly (exec_addu ..),
    exists_writesGprOnly (exec_subu ..)⟩

/-! ## Compare -/

theorem boolWord_lessSigned (a b : Word) : boolWord (lessSigned a b) = if a.toInt < b.toInt then 1 else 0 := by
  simp only [boolWord, lessSigned, decide_eq_true_eq]

theorem boolWord_lessUnsigned (a b : Word) : boolWord (lessUnsigned a b) = if a.toNat < b.toNat then 1 else 0 := by
  simp only [boolWord, lessUnsigned, decide_eq_true_eq]

theorem exec_slt (rd rs rt : RegNum) (s : State) :
    exec (.slt rd rs rt) s = s.writeAndAdvance rd (boolWord (lessSigned (s.readGpr rs) (s.readGpr rt))) := rfl

theorem exec_slti (rt rs : RegNum) (imm : BitVec 16) (s : State) :
    exec (.slti rt rs imm) s = s.writeAndAdvance rt (boolWord (lessSigned (s.readGpr rs) (signImm imm))) := rfl

theorem exec_sltiu (rt rs : RegNum) (imm : BitVec 16) (s : State) :
    exec (.sltiu rt rs imm) s = s.writeAndAdvance rt (boolWord (lessUnsigned (s.readGpr rs) (signImm imm))) := rfl

theorem exec_sltu (rd rs rt : RegNum) (s : State) :
    exec (.sltu rd rs rt) s = s.writeAndAdvance rd (boolWord (lessUnsigned (s.readGpr rs) (s.readGpr rt))) := rfl

/-- Settles O15. -/
theorem compareResult : Obligations.CompareResult := by
  intro rd rs rt imm s
  refine ⟨?slt, ?slti, ?sltiu, ?sltu⟩
  case slt =>
    rw [← boolWord_lessSigned]
    exact exists_writesGprOnly (exec_slt ..)
  case slti =>
    rw [← signImm_toInt, ← boolWord_lessSigned]
    exact exists_writesGprOnly (exec_slti ..)
  case sltiu =>
    rw [← boolWord_lessUnsigned]
    exact exists_writesGprOnly (exec_sltiu ..)
  case sltu =>
    rw [← boolWord_lessUnsigned]
    exact exists_writesGprOnly (exec_sltu ..)

/-! ## The shifts as arithmetic (R160) -/

theorem shiftLeft_toNat (v : Word) (a : BitVec 5) : (v <<< a).toNat = v.toNat * 2 ^ a.toNat % 2 ^ 32 := by
  rw [BitVec.shiftLeft_eq', BitVec.toNat_shiftLeft, Nat.shiftLeft_eq]

theorem ushiftRight_toNat (v : Word) (a : BitVec 5) : (v >>> a).toNat = v.toNat / 2 ^ a.toNat := by
  rw [BitVec.ushiftRight_eq', BitVec.toNat_ushiftRight, Nat.shiftRight_eq_div_pow]

theorem sshiftRight_toInt (v : Word) (a : BitVec 5) : (v.sshiftRight' a).toInt = v.toInt / 2 ^ a.toNat := by
  rw [BitVec.sshiftRight_eq', BitVec.toInt_sshiftRight, Int.shiftRight_eq_div_pow]
  norm_cast

/-- What holds of the value an instruction writes to a register other than `x[0]` holds of that register after it. -/
theorem exists_next_readGpr {i : Instr} {s : State} {r : RegNum} {v : Word} {P : Word → Prop} (hr : r ≠ 0)
    (h : exec i s = s.writeAndAdvance r v) (hv : P v) : ∃ t, exec i s = .next t ∧ P (t.readGpr r) := by
  refine ⟨_, h, ?_⟩
  rw [State.readGpr_advance, State.readGpr_writeGpr, if_neg hr, if_pos rfl]
  exact hv

/-- Settles O19. -/
theorem shiftsAreArithmetic : Obligations.ShiftsAreArithmetic := by
  rintro rd rt rs sa s n hrd rfl
  rw [← shiftAmount_toNat]
  refine ⟨?sll, ?srl, ?sra, ?sllv, ?srlv, ?srav⟩
  case sll => exact exists_next_readGpr (P := fun v => v.toNat = _) hrd (exec_sll ..) (shiftLeft_toNat ..)
  case srl => exact exists_next_readGpr (P := fun v => v.toNat = _) hrd (exec_srl ..) (ushiftRight_toNat ..)
  case sra => exact exists_next_readGpr (P := fun v => v.toInt = _) hrd (exec_sra ..) (sshiftRight_toInt ..)
  case sllv => exact exists_next_readGpr (P := fun v => v.toNat = _) hrd (exec_sllv ..) (shiftLeft_toNat ..)
  case srlv => exact exists_next_readGpr (P := fun v => v.toNat = _) hrd (exec_srlv ..) (ushiftRight_toNat ..)
  case srav => exact exists_next_readGpr (P := fun v => v.toInt = _) hrd (exec_srav ..) (sshiftRight_toInt ..)

/-! ## Multiply (R180) -/

theorem exec_mult (rs rt : RegNum) (s : State) : exec (.mult rs rt) s =
    s.writeProduct (BitVec.ofInt 64 ((s.readGpr rs).toInt * (s.readGpr rt).toInt)) := rfl

theorem exec_multu (rs rt : RegNum) (s : State) : exec (.multu rs rt) s =
    s.writeProduct (BitVec.ofNat 64 ((s.readGpr rs).toNat * (s.readGpr rt).toNat)) := rfl

/-- The two words of a product, put together, are the product. -/
theorem append_words (p : BitVec 64) : p.extractLsb' 32 32 ++ p.extractLsb' 0 32 = p := by
  apply BitVec.eq_of_toNat_eq
  have := p.isLt
  rw [append_toNat, BitVec.extractLsb'_toNat, BitVec.extractLsb'_toNat, Nat.shiftRight_eq_div_pow, Nat.shiftRight_zero]
  omega

theorem abs_toInt_le (a : Word) : |a.toInt| ≤ 2 ^ 31 :=
  abs_le.2 ⟨BitVec.le_toInt a, (BitVec.toInt_lt (x := a)).le⟩

/-- A product of two signed words fits in 64 bits. -/
theorem toInt_product (a b : Word) : (BitVec.ofInt 64 (a.toInt * b.toInt)).toInt = a.toInt * b.toInt := by
  have bound : |a.toInt * b.toInt| ≤ 2 ^ 31 * 2 ^ 31 := by
    rw [abs_mul]
    exact mul_le_mul (abs_toInt_le a) (abs_toInt_le b) (abs_nonneg _) (by norm_num)
  obtain ⟨lower, upper⟩ := abs_le.1 bound
  exact BitVec.toInt_ofInt_eq_self (by decide) (by omega) (by omega)

theorem toNat_product (a b : Word) : (BitVec.ofNat 64 (a.toNat * b.toNat)).toNat = a.toNat * b.toNat := by
  have bound : a.toNat * b.toNat < 2 ^ 32 * 2 ^ 32 := Nat.mul_lt_mul'' a.isLt b.isLt
  rw [BitVec.toNat_ofNat, Nat.mod_eq_of_lt (by omega)]

/-- What a multiply writes and leaves unchanged. -/
theorem writeProduct_frame (s : State) (p : BitVec 64) :
    ∃ t, s.writeProduct p = .next t ∧ t.hi ++ t.lo = p ∧
      SameGprs s t ∧ t.c0 = s.c0 ∧ SameMemory s t ∧ SameModel s t ∧ GoesOn s t :=
  ⟨_, rfl, append_words p, fun _ => rfl, rfl, sameMemory_of_eq rfl rfl, ⟨rfl, rfl, rfl⟩, goesOn_advance _⟩

/-- Settles O20. -/
theorem multiplyResult : Obligations.MultiplyResult := by
  intro rs rt s
  rw [exec_mult, exec_multu]
  refine ⟨?mult, ?multu⟩
  case mult =>
    obtain ⟨t, completed, product, frame⟩ := writeProduct_frame s _
    exact ⟨t, completed, by rw [product, toInt_product], frame⟩
  case multu =>
    obtain ⟨t, completed, product, frame⟩ := writeProduct_frame s _
    exact ⟨t, completed, by rw [product, toNat_product], frame⟩

/-! ## The signed and the unsigned product -/

theorem extractLsb'_low_ofInt (n : Int) : (BitVec.ofInt 64 n).extractLsb' 0 32 = BitVec.ofInt 32 n := by
  apply BitVec.eq_of_toNat_eq
  rw [BitVec.extractLsb'_toNat, BitVec.toNat_ofInt, BitVec.toNat_ofInt, Nat.shiftRight_zero]
  omega

theorem extractLsb'_high_ofInt (n : Int) : (BitVec.ofInt 64 n).extractLsb' 32 32 = BitVec.ofInt 32 (n / 2 ^ 32) := by
  apply BitVec.eq_of_toNat_eq
  rw [BitVec.extractLsb'_toNat, BitVec.toNat_ofInt, BitVec.toNat_ofInt, Nat.shiftRight_eq_div_pow]
  omega

/-- The unsigned value is the signed one, and 2^32 more where bit 31 is set. -/
theorem toNat_eq_toInt_add (a : Word) : (a.toNat : Int) = a.toInt + 2 ^ 32 * (if a.getLsbD 31 then 1 else 0) := by
  rw [BitVec.toInt_eq_msb_cond, BitVec.msb_eq_getLsbD_last]
  split <;> simp_all

/-- The unsigned product is the signed one, and 2^32 times the other operand more for each operand with bit 31 set,
modulo 2^64. -/
theorem unsigned_product_eq (a b : Word) :
    ∃ k : Int, (a.toNat * b.toNat : Int) = a.toInt * b.toInt +
      2 ^ 32 * ((if a.getLsbD 31 then (b.toNat : Int) else 0) + (if b.getLsbD 31 then (a.toNat : Int) else 0) +
        2 ^ 32 * k) := by
  have ha := toNat_eq_toInt_add a
  have hb := toNat_eq_toInt_add b
  refine ⟨if a.getLsbD 31 ∧ b.getLsbD 31 then -1 else 0, ?_⟩
  rw [ha, hb]
  cases a.getLsbD 31 <;> cases b.getLsbD 31 <;> simp <;> ring

theorem ofInt_add_two_pow_mul (n k : Int) : BitVec.ofInt 32 (n + 2 ^ 32 * k) = BitVec.ofInt 32 n := by
  apply BitVec.eq_of_toNat_eq
  rw [BitVec.toNat_ofInt, BitVec.toNat_ofInt]
  omega

/-- A word as the integer that is its value. -/
theorem ofInt_ite_toNat (c : Bool) (a : Word) :
    BitVec.ofInt 32 (if c then (a.toNat : Int) else 0) = if c then a else 0 := by
  cases c with
  | true => rw [if_pos rfl, if_pos rfl, BitVec.ofInt_natCast, BitVec.ofNat_toNat, BitVec.setWidth_eq]
  | false => rfl

theorem low_word_unsigned (a b : Word) :
    (BitVec.ofNat 64 (a.toNat * b.toNat)).extractLsb' 0 32 =
      (BitVec.ofInt 64 (a.toInt * b.toInt)).extractLsb' 0 32 := by
  obtain ⟨k, product⟩ := unsigned_product_eq a b
  rw [← BitVec.ofInt_natCast, Nat.cast_mul, extractLsb'_low_ofInt, extractLsb'_low_ofInt, product,
    ofInt_add_two_pow_mul]

theorem high_word_unsigned (a b : Word) :
    (BitVec.ofNat 64 (a.toNat * b.toNat)).extractLsb' 32 32 =
      (BitVec.ofInt 64 (a.toInt * b.toInt)).extractLsb' 32 32 + (if a.getLsbD 31 then b else 0) +
        (if b.getLsbD 31 then a else 0) := by
  obtain ⟨k, product⟩ := unsigned_product_eq a b
  rw [← BitVec.ofInt_natCast, Nat.cast_mul, extractLsb'_high_ofInt, extractLsb'_high_ofInt, product,
    Int.add_mul_ediv_left _ _ (by decide), ← add_assoc, ofInt_add_two_pow_mul, ← add_assoc, BitVec.ofInt_add,
    BitVec.ofInt_add, ofInt_ite_toNat, ofInt_ite_toNat]

/-- Settles O21. -/
theorem multuHiFromMultHi : Obligations.MultuHiFromMultHi := fun _ _ _ =>
  ⟨_, _, rfl, rfl, low_word_unsigned _ _, high_word_unsigned _ _⟩

/-! ## The moves of HI and LO (R183 to R187) -/

theorem exec_mfhi (rd : RegNum) (s : State) : exec (.mfhi rd) s = s.writeAndAdvance rd s.hi := rfl

theorem exec_mflo (rd : RegNum) (s : State) : exec (.mflo rd) s = s.writeAndAdvance rd s.lo := rfl

/-- Settles O22: nothing but the one half is set. -/
theorem hiLoMoveResult : Obligations.HiLoMoveResult := by
  intro rd rs s
  refine ⟨exists_writesGprOnly (exec_mfhi rd s), exists_writesGprOnly (exec_mflo rd s), ?mthi, ?mtlo⟩
  case mthi => exact ⟨_, rfl, rfl, rfl, rfl, fun _ => rfl, sameMemory_of_eq rfl rfl, ⟨rfl, rfl, rfl⟩, goesOn_advance _⟩
  case mtlo => exact ⟨_, rfl, rfl, rfl, rfl, fun _ => rfl, sameMemory_of_eq rfl rfl, ⟨rfl, rfl, rfl⟩, goesOn_advance _⟩

end Sys2Proof.Machine

/-! PROOFS. The branches and jumps outside a delay slot (spec/44_branch.md sections 1 and 2, spec/45_jump.md): one
lemma says what a plan of a branch or jump leaves, and each of the instructions is a use of it. -/

namespace Sys2Proof.Machine

/-! ## What a branch or jump leaves -/

theorem exec_of_jump {i : Instr} {s : State} {c : Bool} {l : Option RegNum} {a : Word}
    (h : planOf s i = .jump false c l a) (hbd : s.bd = false) : exec i s = .next ((s.link c l).branchIf c a) := by
  rw [exec_eq_run, h, Plan.run, State.outsideDelaySlot, hbd]
  rfl

theorem branchOutcome_branchIf_link (s : State) {c : Bool} {p : Prop} (hp : c = true ↔ p) (l : Option RegNum)
    (a : Word) : BranchOutcome p a s ((s.link c l).branchIf c a) := by
  rw [← propext hp]
  cases c <;> simp [BranchOutcome]

theorem branchIf_link_frame (s : State) (c : Bool) (l : Option RegNum) (a : Word) :
    SameSpecial s ((s.link c l).branchIf c a) ∧ SameMemory s ((s.link c l).branchIf c a) ∧
    SameModel s ((s.link c l).branchIf c a) := by
  refine ⟨?special, sameMemory_of_eq (by simp) (by simp), ?model⟩
  case special => simp [SameSpecial]
  case model => simp [SameModel]

/-- A branch or jump without a link changes nothing but where control goes. -/
theorem exists_branch {i : Instr} {s : State} {c : Bool} {a : Word} (h : planOf s i = .jump false c none a)
    (hbd : s.bd = false) {p : Prop} (hp : c = true ↔ p) :
    ∃ t, exec i s = .next t ∧ BranchOutcome p a s t ∧ SameGprs s t ∧ SameSpecial s t ∧ SameMemory s t ∧
      SameModel s t :=
  ⟨_, exec_of_jump h hbd, branchOutcome_branchIf_link s hp none a, State.readGpr_branchIf s c a,
    branchIf_link_frame s c none a⟩

/-- The register a branch or jump links holds the return link, where it is written. -/
theorem gprUpdate_branchIf_link (s : State) (c : Bool) (r : RegNum) (a : Word) :
    GprUpdate r (if c || s.cfg.linkOnNotTaken then returnLink s.pc else s.readGpr r) s
      ((s.link c (some r)).branchIf c a) := by
  intro q
  rw [State.readGpr_branchIf]
  by_cases linked : (c || s.cfg.linkOnNotTaken) = true
  · rw [State.link, if_pos linked, if_pos linked, State.readGpr_writeGpr]
  · rw [State.link, if_neg linked, if_neg linked]
    split
    next h0 => rw [h0, State.readGpr_zero]
    next =>
      split
      next hq => rw [hq]
      next => rfl

/-- A branch or jump with a link changes nothing but the link and where control goes. -/
theorem exists_linking_branch {i : Instr} {s : State} {c : Bool} {r : RegNum} {a : Word}
    (h : planOf s i = .jump false c (some r) a) (hbd : s.bd = false) {p : Prop} (hp : c = true ↔ p) {v : Word}
    (hv : v = if c || s.cfg.linkOnNotTaken then returnLink s.pc else s.readGpr r) :
    ∃ t, exec i s = .next t ∧ BranchOutcome p a s t ∧ GprUpdate r v s t ∧ SameSpecial s t ∧ SameMemory s t ∧
      SameModel s t :=
  ⟨_, exec_of_jump h hbd, branchOutcome_branchIf_link s hp (some r) a, hv ▸ gprUpdate_branchIf_link s c r a,
    branchIf_link_frame s c (some r) a⟩

/-! ## The branches -/

/-- Settles O23. -/
theorem conditionalBranchResult : Obligations.ConditionalBranchResult := by
  rintro rs rt o s _ hbd rfl
  exact ⟨exists_branch (i := .beq rs rt o) rfl hbd beq_iff_eq, exists_branch (i := .bne rs rt o) rfl hbd bne_iff_ne,
    exists_branch (i := .bgez rs o) rfl hbd (atLeastZero_iff _),
    exists_branch (i := .bgtz rs o) rfl hbd (aboveZero_iff _),
    exists_branch (i := .blez rs o) rfl hbd (atMostZero_iff _),
    exists_branch (i := .bltz rs o) rfl hbd (belowZero_iff _)⟩

/-- The link as the statements write it. -/
theorem link_value {s : State} {c : Bool} {p : Prop} [Decidable p] (hp : c = true ↔ p) :
    (if p ∨ s.cfg.linkOnNotTaken = true then s.pc + 8 else s.readGpr 31) =
      if c || s.cfg.linkOnNotTaken then returnLink s.pc else s.readGpr 31 := by
  simp only [Bool.or_eq_true, hp, returnLink]

/-- Settles O24. -/
theorem branchAndLinkResult : Obligations.BranchAndLinkResult := by
  rintro rs o s _ hbd hrs rfl
  have allowed : (rs == 31) = false := beq_eq_false_iff_ne.2 hrs
  have bgezal : planOf s (.bgezal rs o) = .jump false (atLeastZero (s.readGpr rs)) (some 31) (branchTarget s.pc o) := by
    rw [planOf, allowed]
  have bltzal : planOf s (.bltzal rs o) = .jump false (belowZero (s.readGpr rs)) (some 31) (branchTarget s.pc o) := by
    rw [planOf, allowed]
  exact ⟨exists_linking_branch bgezal hbd (atLeastZero_iff _) (link_value (atLeastZero_iff _)),
    exists_linking_branch bltzal hbd (belowZero_iff _) (link_value (belowZero_iff _))⟩

/-! ## The jumps -/

/-- The target JR and JALR take from a register, by the policy (R57, R237). -/
theorem registerTarget_eq {c : Config} {v register : Word} (refuse : c.misalignedFetch = .refuse → register = v)
    (force : c.misalignedFetch = .forceAlign → register.toNat = v.toNat / 4 * 4) : registerTarget c v = register := by
  rw [registerTarget]
  cases policy : c.misalignedFetch with
  | refuse => exact (refuse policy).symm
  | forceAlign => exact BitVec.eq_of_toNat_eq ((alignDown_toNat v).trans (force policy).symm)

/-- Settles O30. -/
theorem jumpResult : Obligations.JumpResult := by
  rintro x rd rs s _ register hbd rfl refuse force
  obtain rfl := registerTarget_eq refuse force
  have always : true = true ↔ True := iff_true_intro rfl
  refine ⟨exists_branch (i := .j x) rfl hbd always, exists_linking_branch (i := .jal x) rfl hbd always rfl,
    exists_branch (i := .jr rs) rfl hbd always, fun hne => ?jalr⟩
  case jalr =>
    have jalr : planOf s (.jalr rd rs) = .jump false true (some rd) (registerTarget s.cfg (s.readGpr rs)) := by
      rw [planOf, beq_eq_false_iff_ne.2 hne]
    exact exists_linking_branch jalr hbd always rfl

end Sys2Proof.Machine

/-! PROOFS. Loads and stores, of general registers and of coprocessor 0 registers, and the coprocessor operations
(spec/46_load_store.md, spec/47_coprocessor0.md). -/

namespace Sys2Proof.Machine

/-! ## The effective address and its checks (R250, R251) -/

theorem effectiveAddress_eq_ofInt (b : Word) (o : BitVec 16) :
    effectiveAddress b o = BitVec.ofInt 32 (b.toNat + o.toInt) := by
  rw [BitVec.ofInt_add, BitVec.ofInt_natCast, BitVec.ofNat_toNat, BitVec.setWidth_eq, ← signImm_toInt,
    BitVec.ofInt_toInt]
  rfl

theorem dataAddress_aligned {c : Config} {ea : Word} (h : ea.toNat % 4 = 0) :
    dataAddress c ea = if mapped c ea then .ok ea else .error .unmappedAccess := by
  rw [dataAddress, if_pos ((aligned_iff ea).2 h)]

theorem dataAddress_refused {c : Config} {ea : Word} (h : ea.toNat % 4 ≠ 0) (refuse : c.misalignedData = .refuse) :
    dataAddress c ea = .error .misalignedData := by
  rw [dataAddress, aligned_eq_false h, refuse]
  rfl

theorem dataAddress_forceAlign {c : Config} {ea : Word} (h : ea.toNat % 4 ≠ 0)
    (force : c.misalignedData = .forceAlign) :
    dataAddress c ea = if mapped c (alignDown ea) then .ok (alignDown ea) else .error .unmappedAccess := by
  rw [dataAddress, aligned_eq_false h, force]
  rfl

/-- Settles O33. -/
theorem dataAddressChecks : Obligations.DataAddressChecks := by
  refine ⟨effectiveAddress_eq_ofInt, fun c ea => ⟨?inMap, ?unmapped, ?refused, ?forced⟩⟩
  case inMap =>
    intro multiple inMap
    rw [dataAddress_aligned multiple, if_pos inMap]
  case unmapped =>
    intro multiple unmapped
    rw [dataAddress_aligned multiple, unmapped]
    rfl
  case refused => exact dataAddress_refused
  case forced =>
    exact fun misaligned force => ⟨alignDown ea, alignDown_toNat ea, dataAddress_forceAlign misaligned force⟩

/-! ## Loads -/

theorem exec_lw (rt : RegNum) (o : BitVec 16) (base : RegNum) (s : State) : exec (.lw rt o base) s =
    State.finish ((s.loadWord (effectiveAddress (s.readGpr base) o)).map (s.writeGpr rt)) := rfl

theorem exec_lwc0 (cs : RegNum) (o : BitVec 16) (base : RegNum) (s : State) : exec (.lwc0 cs o base) s =
    State.finish ((s.loadWord (effectiveAddress (s.readGpr base) o)).map (s.writeC0 cs)) := rfl

theorem loadWord_of_error {s : State} {ea : Word} {q : Refusal} (h : dataAddress s.cfg ea = .error q) :
    s.loadWord ea = .error q := by
  rw [State.loadWord, h]

theorem loadWord_of_none {s : State} {ea a : Word} (h : dataAddress s.cfg ea = .ok a) (hw : s.readWord a = none) :
    s.loadWord ea = .error .unwrittenRead := by
  rw [State.loadWord, h]
  simp only [hw]

theorem loadWord_of_some {s : State} {ea a v : Word} (h : dataAddress s.cfg ea = .ok a)
    (hw : s.readWord a = some v) : s.loadWord ea = .ok v := by
  rw [State.loadWord, h]
  simp only [hw]

theorem exec_lw_next {s : State} {base : RegNum} {o : BitVec 16} {a v : Word}
    (h : dataAddress s.cfg (effectiveAddress (s.readGpr base) o) = .ok a) (hw : s.readWord a = some v)
    (rt : RegNum) : exec (.lw rt o base) s = .next (s.writeGpr rt v).advance := by
  rw [exec_lw, loadWord_of_some h hw]
  rfl

theorem exec_lwc0_next {s : State} {base : RegNum} {o : BitVec 16} {a v : Word}
    (h : dataAddress s.cfg (effectiveAddress (s.readGpr base) o) = .ok a) (hw : s.readWord a = some v)
    (cs : RegNum) : exec (.lwc0 cs o base) s = .next (s.writeC0 cs v).advance := by
  rw [exec_lwc0, loadWord_of_some h hw]
  rfl

/-- Settles O35. -/
theorem loadWordResult : Obligations.LoadWordResult := fun rt _ _ s _ v h hw =>
  ⟨_, exec_lw_next h hw rt, writesGprOnly_writeGpr_advance s rt v⟩

/-! ## Stores -/

theorem exec_sw (rt : RegNum) (o : BitVec 16) (base : RegNum) (s : State) : exec (.sw rt o base) s =
    State.finish (s.storeWord (effectiveAddress (s.readGpr base) o) (s.readGpr rt)) := rfl

theorem exec_swc0 (cs : RegNum) (o : BitVec 16) (base : RegNum) (s : State) : exec (.swc0 cs o base) s =
    State.finish (s.storeWord (effectiveAddress (s.readGpr base) o) (s.readC0 cs)) := rfl

theorem storeWord_of_error {s : State} {ea v : Word} {q : Refusal} (h : dataAddress s.cfg ea = .error q) :
    s.storeWord ea v = .error q := by
  rw [State.storeWord, h]

theorem storeWord_of_ok {s : State} {ea a v : Word} (h : dataAddress s.cfg ea = .ok a) :
    s.storeWord ea v = .ok (s.writeWord a v) := by
  rw [State.storeWord, h]

theorem exec_sw_next {s : State} {base : RegNum} {o : BitVec 16} {a : Word}
    (h : dataAddress s.cfg (effectiveAddress (s.readGpr base) o) = .ok a) (rt : RegNum) :
    exec (.sw rt o base) s = .next (s.writeWord a (s.readGpr rt)).advance := by
  rw [exec_sw, storeWord_of_ok h]
  rfl

theorem exec_swc0_next {s : State} {base : RegNum} {o : BitVec 16} {a : Word}
    (h : dataAddress s.cfg (effectiveAddress (s.readGpr base) o) = .ok a) (cs : RegNum) :
    exec (.swc0 cs o base) s = .next (s.writeWord a (s.readC0 cs)).advance := by
  rw [exec_swc0, storeWord_of_ok h]
  rfl

theorem mem_stored_writeWord (s : State) (a v : Word) (x : Nat) :
    x ∈ (s.writeWord a v).stored ↔ x ∈ s.stored ∨ (s.cfg.smcPolicy = .refuse ∧ x = a.toNat) := by
  rw [State.writeWord_stored]
  cases s.cfg.smcPolicy with
  | refuse => simp [or_comm]
  | coherent => simp

theorem readWord_writeWord_same (s : State) (a v : Word) : (s.writeWord a v).readWord a = some v :=
  Memory.readWord_writeWord_same ..

/-- The state `t` is `s` with the word `v` stored at `a` and the next instruction to execute, and nothing else
changed. -/
def StoresWordOnly (a v : Word) (s t : State) : Prop :=
  t.readWord a = some v ∧
  (∀ x : Word, x.toNat < a.toNat ∨ a.toNat + 4 ≤ x.toNat → t.readByte x = s.readByte x) ∧
  (∀ x, x ∈ t.stored ↔ x ∈ s.stored ∨ (s.cfg.smcPolicy = .refuse ∧ x = a.toNat)) ∧
  SameGprs s t ∧ SameSpecial s t ∧ SameModel s t ∧ GoesOn s t

theorem storesWordOnly_writeWord_advance (s : State) (a v : Word) : StoresWordOnly a v s (s.writeWord a v).advance :=
  ⟨readWord_writeWord_same s a v, fun _ hx => Memory.get_writeWord_outside _ _ _ _ hx, mem_stored_writeWord s a v,
    fun _ => rfl, ⟨rfl, rfl, rfl⟩, ⟨rfl, rfl, rfl⟩, goesOn_advance _⟩

/-- Settles O36. -/
theorem storeWordResult : Obligations.StoreWordResult := fun rt _ _ s a h =>
  ⟨_, exec_sw_next h rt, storesWordOnly_writeWord_advance s a (s.readGpr rt)⟩

/-- Settles O34. -/
theorem failedAccessIsRefused : Obligations.FailedAccessIsRefused := by
  rintro r base o s _ rfl
  refine ⟨fun q h => ?refused, fun a h hw => ?unwritten⟩
  case refused =>
    rw [exec_lw, exec_sw, exec_lwc0, exec_swc0, loadWord_of_error h, storeWord_of_error h, storeWord_of_error h]
    exact ⟨rfl, rfl, rfl, rfl⟩
  case unwritten =>
    rw [exec_lw, exec_lwc0, loadWord_of_none h hw]
    exact ⟨rfl, rfl⟩

/-! ## Coprocessor 0 registers (R271, R274 to R277) -/

theorem readC0_plain {s : State} (h : s.cfg.c0Access = .plain) (r : RegNum) : s.readC0 r = s.c0[r.toNat] := by
  rw [State.readC0, h]

theorem readC0_custom {s : State} (h : s.cfg.c0Access = .custom) (r : RegNum) : s.readC0 r = Config.c0Read s.c0 r := by
  rw [State.readC0, h]

theorem writeC0_plain {s : State} (h : s.cfg.c0Access = .plain) (q : RegNum) (v : Word) (r : RegNum) :
    (s.writeC0 q v).c0[r.toNat] = if r = q then v else s.c0[r.toNat] := by
  rw [← readC0_plain h, ← State.readC0_writeC0 h, readC0_plain (by rw [State.writeC0_cfg, h])]

theorem writeC0_custom {s : State} (h : s.cfg.c0Access = .custom) (q : RegNum) (v : Word) :
    (s.writeC0 q v).c0 = Config.c0Write s.c0 q v := by
  rw [State.writeC0_c0, h]

/-- A write of a coprocessor 0 register changes nothing else. -/
theorem writeC0_advance_frame (s : State) (q : RegNum) (v : Word) :
    SameGprs s (s.writeC0 q v).advance ∧ (s.writeC0 q v).advance.hi = s.hi ∧ (s.writeC0 q v).advance.lo = s.lo ∧
    SameMemory s (s.writeC0 q v).advance ∧ SameModel s (s.writeC0 q v).advance ∧ GoesOn s (s.writeC0 q v).advance := by
  refine ⟨State.readGpr_writeC0 s q v, by simp, by simp, sameMemory_of_eq (by simp) (by simp), ?model, ?goesOn⟩
  case model => simp [SameModel]
  case goesOn => simp [GoesOn]

theorem exec_mfc0 (rt cs : RegNum) (s : State) : exec (.mfc0 rt cs) s = s.writeAndAdvance rt (s.readC0 cs) := rfl

theorem exec_mtc0 (rt cs : RegNum) (s : State) :
    exec (.mtc0 rt cs) s = .next (s.writeC0 cs (s.readGpr rt)).advance := rfl

/-- Settles O38. -/
theorem moveCoprocessorResult : Obligations.MoveCoprocessorResult := by
  intro rt cs s plain
  rw [← readC0_plain plain]
  exact ⟨exists_writesGprOnly (exec_mfc0 rt cs s), _, exec_mtc0 rt cs s, writeC0_plain plain cs (s.readGpr rt),
    writeC0_advance_frame s cs (s.readGpr rt)⟩

/-- Settles O39. -/
theorem coprocessorLoadStoreResult : Obligations.CoprocessorLoadStoreResult := by
  intro cs base o s a plain h
  rw [← readC0_plain plain]
  exact ⟨fun v hw => ⟨_, exec_lwc0_next h hw cs, writeC0_plain plain cs v, writeC0_advance_frame s cs v⟩,
    _, exec_swc0_next h cs, storesWordOnly_writeWord_advance s a (s.readC0 cs)⟩

/-- Settles O40. -/
theorem coprocessorAccessFunctions : Obligations.CoprocessorAccessFunctions := by
  intro rt cs base o s a custom
  rw [← readC0_custom custom]
  refine ⟨exists_writesGprOnly (exec_mfc0 rt cs s), ?mtc0, fun h => ⟨fun v hw => ?lwc0, ?swc0⟩⟩
  case mtc0 =>
    exact ⟨_, exec_mtc0 rt cs s, writeC0_custom custom cs (s.readGpr rt), writeC0_advance_frame s cs (s.readGpr rt)⟩
  case lwc0 => exact ⟨_, exec_lwc0_next h hw cs, writeC0_custom custom cs v, writeC0_advance_frame s cs v⟩
  case swc0 => exact ⟨_, exec_swc0_next h cs, storesWordOnly_writeWord_advance s a (s.readC0 cs)⟩

/-! ## A load right after a store (R66, R72) -/

/-- Settles O37: both kinds of store leave the same memory, and both kinds of load read it. -/
theorem storeThenLoad : Obligations.StoreThenLoad := by
  intro rt rd base base' o o' s t a v stored h h'
  have ht : t = (s.writeWord a v).advance := by
    rcases stored with ⟨e, rfl⟩ | ⟨e, plain, rfl⟩ | ⟨e, custom, rfl⟩
    · exact (Host.Outcome.next.inj (e.symm.trans (exec_sw_next h rt)))
    · rw [← readC0_plain plain]
      exact (Host.Outcome.next.inj (e.symm.trans (exec_swc0_next h rt)))
    · rw [← readC0_custom custom]
      exact (Host.Outcome.next.inj (e.symm.trans (exec_swc0_next h rt)))
  subst ht
  have address : dataAddress (s.writeWord a v).advance.cfg
      (effectiveAddress ((s.writeWord a v).advance.readGpr base') o') = .ok a := h'
  have word : (s.writeWord a v).advance.readWord a = some v := readWord_writeWord_same s a v
  refine ⟨⟨_, exec_lw_next address word rd, ?lw⟩, _, exec_lwc0_next address word rd, ?plain, ?custom⟩
  case lw => exact (writesGprOnly_writeGpr_advance _ rd v).1
  case plain => exact fun plain => writeC0_plain (s := (s.writeWord a v).advance) plain rd v
  case custom => exact fun custom => writeC0_custom (s := (s.writeWord a v).advance) custom rd v

/-! ## Operations of the coprocessor system (R273) -/

/-- A write at an aligned address of the map is read back there; one elsewhere is passed over. -/
theorem readWord_write_step (s : State) (b v : Word) {a : Word} (ha : a.toNat % 4 = 0) (hm : mapped s.cfg a = true) :
    (if aligned b && mapped s.cfg b then s.writeWord b v else s).readWord a =
      if a = b then some v else s.readWord a := by
  by_cases hb : (aligned b && mapped s.cfg b) = true
  · rw [if_pos hb]
    rw [Bool.and_eq_true, aligned_iff] at hb
    exact Memory.readWord_writeWord _ _ hb.1 ha v
  · have hne : a ≠ b := fun e => hb (by rw [← e, (aligned_iff a).2 ha, hm]; rfl)
    rw [if_neg hb, if_neg hne]

theorem readWord_write_step_unmapped (s : State) (b v : Word) {a : Word} (ha : a.toNat % 4 = 0)
    (hm : mapped s.cfg a = false) :
    (if aligned b && mapped s.cfg b then s.writeWord b v else s).readWord a = s.readWord a := by
  by_cases hb : (aligned b && mapped s.cfg b) = true
  · rw [if_pos hb]
    rw [Bool.and_eq_true, aligned_iff] at hb
    exact Memory.readWord_writeWord_ne _ _ hb.1 ha (fun e => by simp [e, hb.2] at hm) v
  · rw [if_neg hb]

/-- A word after a sequence of writes: the last one written there, in the map. -/
theorem readWord_writeWords (s : State) (ws : List (Word × Word)) {a : Word} (ha : a.toNat % 4 = 0) :
    (s.writeWords ws).readWord a =
      if mapped s.cfg a then (ws.reverse.lookup a).or (s.readWord a) else s.readWord a := by
  induction ws generalizing s with
  | nil => simp [State.writeWords]
  | cons p ws ih =>
    obtain ⟨b, v⟩ := p
    have cfg : (if aligned b && mapped s.cfg b then s.writeWord b v else s).cfg = s.cfg := by split <;> rfl
    rw [State.writeWords, ih, cfg]
    cases hm : mapped s.cfg a with
    | true =>
      rw [readWord_write_step s b v ha hm, if_pos rfl, if_pos rfl, List.reverse_cons, List.lookup_append,
        Option.or_assoc]
      by_cases e : a = b
      · simp [List.lookup, e]
      · simp [List.lookup, e, beq_eq_false_iff_ne.2 e]
    | false => rw [readWord_write_step_unmapped s b v ha hm]; rfl

theorem readGpr_applyCop0 (s : State) (e : Cop0Effect) (r : RegNum) :
    (s.applyCop0 e).readGpr r = if r = 0 then 0 else e.gpr[r.toNat] := by
  rw [← State.readGpr_writeGprs s]
  exact State.readGpr_congr (by simp) r

theorem cop0Completes_applyCop0 (s : State) (e : Cop0Effect) : Cop0Completes e s (s.applyCop0 e) := by
  have memory : (s.applyCop0 e).mem = (s.writeWords e.writes).mem := State.applyCop0_mem s e
  refine ⟨readGpr_applyCop0 s e, by simp, by simp, by simp, fun a ha => ?words, fun x hx => ?bytes, fun x => ?stored,
    ?model, ?control⟩
  case words =>
    rw [← readWord_writeWords s e.writes ha]
    simp [State.readWord]
  case bytes =>
    rw [← State.readByte_writeWords s e.writes x hx]
    simp [State.readByte]
  case stored =>
    rw [State.applyCop0_stored, State.mem_stored_writeWords]
    simp only [aligned_iff]
  case model => simp [SameModel]
  case control =>
    rw [GoesOn, State.applyCop0, State.cop0Control_pc, State.cop0Control_npc, State.cop0Control_bd]
    cases e.control <;> simp

/-- Settles O41. -/
theorem coprocessorOperation : Obligations.CoprocessorOperation := by
  intro f s
  have executed : exec (.cop0 f) s = s.finishCop0 (s.cop0Outcome f) := rfl
  refine ⟨fun refuse => ?refuse, fun perform => ?perform, fun custom => ?custom, rfl, raises_takeException s,
    fun e => ⟨_, rfl, cop0Completes_applyCop0 s e⟩⟩
  case refuse =>
    rw [executed, State.cop0Outcome, refuse]
    rfl
  case custom => rw [executed, State.cop0Outcome, custom]
  case perform =>
    have performed : exec (.cop0 f) s = .next (s.applyCop0 (performEffect f s)) := by
      rw [executed, State.cop0Outcome, perform]
      rfl
    refine ⟨_, performed, rfl, fun r hr => ?_, rfl, rfl, rfl, sameMemory_of_eq rfl rfl, ⟨rfl, rfl, rfl⟩, rfl, rfl, rfl⟩
    rw [readGpr_applyCop0, if_neg hr]
    rfl

end Sys2Proof.Machine
